-- ==== Sys2Proof/Word.lean ====
section
/-! DEFINITION. The plainest word types of GEMROC-BFX. Every value of the block is an unsigned integer of a stated
width (`00_scope.md` R9), so every one is a `BitVec` of that width, with bit 0 the least significant (R10). -/

namespace Sys2Proof

/-- One byte of the frame, of an operation on the operation port, or of a rendered string (R50). -/
abbrev Byte := BitVec 8

end Sys2Proof
end

