-- ==== Sys2Proof/Config.lean ====
section
/-! DEFINITION. What is fixed when the block is built (`00_scope.md` R6, R7; `10_state.md` R29) and the free values
the spec leaves open. Nothing here can be written at run time: "`PACKET_SIZE` is a compile-time constant". -/

namespace Sys2Proof.Config

/-- The build-time parameters, legal or not (`45_frame.md` R222 refuses those that break the layout sum). -/
structure Params where
  maxData      : Nat
  packetSize   : Nat
  clkStrMaxlen : Nat
deriving DecidableEq, Repr

/-- `MAX_DATA`: the number of data-entry slots (R6). -/
abbrev maxData : Nat := 180

/-- `PACKET_SIZE`: the one legal frame length in bytes (R6). -/
abbrev packetSize : Nat := 1458

/-- The values the OPEN parameter `CLK_STR_MAXLEN` can have (R7: "must be at least 1"; `93_implementation_defined.md`
U9: `parameter`). A build with 0 is refused (U8): it has no value of this type. -/
abbrev StrMaxlen : Type := { n : Nat // 1 ≤ n }

/-- The default of `CLK_STR_MAXLEN`, the spec's 8 (R7, U9). -/
def defaultStrMaxlen : StrMaxlen := ⟨8, by decide⟩

/-- The parameters of a build of this hardware: R6 (180 slots, 1458 bytes) with its `CLK_STR_MAXLEN`. -/
def params (c : StrMaxlen) : Params := { maxData := maxData, packetSize := packetSize, clkStrMaxlen := c.val }

/-- The nine fields of an entry slot (`10_state.md` R27). -/
inductive SlotField where
  | adc | timestampFpga | timestampAsic | timestampAsicDisp | channelId | asicId | pileUp | overflow | index
deriving DecidableEq, Repr

/-- The places that can hold "no value" (`10_state.md` R26, R27, R33) and are read by some operation. -/
inductive Place where
  | len | packetNo | status24 | clkState | i2cStatus | adcClkSel | asicEnableStatus | countRaw | dataCount | word | idx
  | slot (k : Nat) (f : SlotField)
deriving DecidableEq, Repr

/-- FREE VALUE (`93_implementation_defined.md` U14: "No value: `any value` if represented"; log entry 2). What a
place that holds no value gives to an operation that reads it all the same. It has no body, so nothing can be proved
about which value it is. `epoch` counts the writes of "no value" (START and `rst`), so each of them leaves a value
of its own. -/
opaque noValue (epoch : Nat) (p : Place) (w : Nat) : BitVec w

/-- FREE VALUE, as `noValue`, for the string register `r.clk_state_str` (log entry 2). -/
opaque noText (epoch : Nat) : List Byte

end Sys2Proof.Config
end

