-- ==== Sys2Proof/Syntax.lean ====
section
/-! DEFINITION. The closed list of operations of GEMROC-BFX (`30_encoding.md` R100): one constructor per row of
`spec/opcode_table.json`, in the table's order. The block is no processor and no operation names a register as an
operand (`10_state.md` R26): where a row gives operands (`word`, `mask`, `v`, `max_len`) the constructor carries
them, everywhere else source and destination are the fixed registers of the row. -/

namespace Sys2Proof

/-- The operand forms of `XF.SCALE4` (`41_transforms.md` R143): an explicit 12-bit value, or the register form by
which `EX.TS_ASIC` uses it, `ent[idx].timestamp_asic_disp <- XF.SCALE4(ent[idx].timestamp_asic)`
(`44_data_entry.md` R194; DEDUCED, log entry 10). -/
inductive Scale4Arg where
  | value (v : BitVec 12)
  | entry
deriving DecidableEq, Repr

/-- The operand forms of `XF.MINBIN` (`41_transforms.md` R145): `v` as "u32 or u64" with a natural `max_len`, or the
register form by which `DEC.HDR` uses it, `r.clk_state_str <- XF.MINBIN(zext_32(r.clk_state), CLK_STR_MAXLEN)`
(R147, and `10_state.md` R26: "written by `XF.MINBIN`"; DEDUCED, log entry 10). -/
inductive MinbinArg where
  | u32 (v : BitVec 32) (maxLen : Nat)
  | u64 (v : BitVec 64) (maxLen : Nat)
  | clkState
deriving DecidableEq, Repr

/-- The operations, one per row of `spec/opcode_table.json`. -/
inductive Instr where
  | bfx64 (word mask : BitVec 64)
  | bfx32 (word mask : BitVec 32)
  | bfx16 (word mask : BitVec 16)
  | xfId (width : Nat) (v : BitVec width)
  | xfScale4 (arg : Scale4Arg)
  | xfMinbin (arg : MinbinArg)
  | ldPktno
  | ldStatus
  | exClkState
  | exI2cStatus
  | exAdcClkSel
  | exAsicEn
  | decHdr
  | ldCount
  | exCount
  | chkCount
  | ldEntry
  | exAdc
  | exTsFpga
  | exTsAsic
  | exChannelId
  | exAsicId
  | exPileUp
  | exOverflow
  | decEntry
  | chkLen
  | start
  | decode
  | assertLayout
  | summary
deriving DecidableEq, Repr

end Sys2Proof
end

