-- ==== Sys2Proof/WellFormed.lean ====
section
/-! DEFINITION. Which operations can be written as words of the operation port (log entry 1). Only two operands are
not bounded by their type: the width of `XF.ID`'s operand ("an unsigned value of the field's width", R141; the widest
field has 64 bits) and `XF.MINBIN`'s `max_len` ("a natural number", R145; carried as a 64-bit operand; DESIGN CHOICE, log
entry 15). The meanings
of `Machine/` accept every operand, well formed or not. -/

namespace Sys2Proof

/-- `XF.ID`'s operand has one of the widths a field of the frame can have: 1 to 64 bits. -/
def identityWidthOk (width : Nat) : Bool := 1 ≤ width && width ≤ 64

/-- `max_len` fits the 64-bit operand that carries it. -/
def maxLenOk (maxLen : Nat) : Bool := maxLen < 2 ^ 64

/-- Well-formedness of an operation. -/
def Instr.wellFormed : Instr → Bool
  | .bfx64 _ _ => true
  | .bfx32 _ _ => true
  | .bfx16 _ _ => true
  | .xfId width _ => identityWidthOk width
  | .xfScale4 _ => true
  | .xfMinbin (.u32 _ maxLen) => maxLenOk maxLen
  | .xfMinbin (.u64 _ maxLen) => maxLenOk maxLen
  | .xfMinbin .clkState => true
  | .ldPktno => true
  | .ldStatus => true
  | .exClkState => true
  | .exI2cStatus => true
  | .exAdcClkSel => true
  | .exAsicEn => true
  | .decHdr => true
  | .ldCount => true
  | .exCount => true
  | .chkCount => true
  | .ldEntry => true
  | .exAdc => true
  | .exTsFpga => true
  | .exTsAsic => true
  | .exChannelId => true
  | .exAsicId => true
  | .exPileUp => true
  | .exOverflow => true
  | .decEntry => true
  | .chkLen => true
  | .start => true
  | .decode => true
  | .assertLayout => true
  | .summary => true

end Sys2Proof
end

