-- ==== Sys2Proof/Decode.lean ====
section
/-! DEFINITION. The words of the operation port, and after the decoder the encoder.

The spec gives its operations no words: "every row has `match`: 0x0 and `mask`: 0x0 ... Selection is by position"
(`30_encoding.md` R102), "None has an opcode field or any discriminating bit" (R80), and the block "fetches no
instructions" (R3). So that an operation can be applied by itself, the MODEL has an operation port with words of its
own (DESIGN CHOICE, log entry 1): one selector byte, the operation's row number in R100's list counted from 1, then
the operands the row gives, each little-endian as all numbers of this hardware are (`20_memory.md` R51). What a
frame's bytes mean is not decided here but by position, in the load and extraction operations. -/

namespace Sys2Proof

/-- Why the operation port turns bytes away ("Nothing else is admitted", `00_scope.md` R8). -/
inductive OpReject where
  /-- no byte at all -/
  | empty
  /-- the selector byte is the number of no row of R100's list -/
  | noSuchOperation (code : Nat)
  /-- the bytes end before the operands do -/
  | truncatedOperands
  /-- the byte that names an operand form (XF.SCALE4, XF.MINBIN) names none -/
  | noSuchForm (tag : Nat)
  /-- XF.ID's operand width is 0 or above 64 -/
  | noSuchWidth (width : Nat)
  /-- an operand has bits set above its stated width -/
  | operandTooWide
deriving DecidableEq, Repr

/-- The first `n` bytes as a little-endian number, and the bytes after them. -/
def takeLE : Nat → List Byte → Option (Nat × List Byte)
  | 0, bs => some (0, bs)
  | _ + 1, [] => none
  | n + 1, b :: bs => (takeLE n bs).map fun p => (b.toNat + 256 * p.1, p.2)

/-- `n` bytes of a number, least significant first. -/
def leBytes : Nat → Nat → List Byte
  | 0, _ => []
  | n + 1, v => BitVec.ofNat 8 v :: leBytes n (v / 256)

/-- An operation read from bytes, with the bytes after it. -/
abbrev Decoded := Except OpReject (Instr × List Byte)

/-- Take an operand of `n` bytes, then go on with it. -/
def operand (n : Nat) (bs : List Byte) (k : Nat → List Byte → Decoded) : Decoded :=
  match takeLE n bs with
  | none => .error .truncatedOperands
  | some (v, rest) => k v rest

/-- Operands `word` and `mask` of the extractor at width `8 * n` bits. -/
def decodeExtractor (n : Nat) (make : Nat → Nat → Instr) (bs : List Byte) : Decoded :=
  operand n bs fun word rest => operand n rest fun mask rest => .ok (make word mask, rest)

/-- Operands of `XF.ID`: the width in one byte, the value in eight. -/
def decodeIdentity (bs : List Byte) : Decoded :=
  operand 1 bs fun width rest =>
    if identityWidthOk width then
      operand 8 rest fun v rest =>
        if v < 2 ^ width then .ok (.xfId width (BitVec.ofNat width v), rest) else .error .operandTooWide
    else .error (.noSuchWidth width)

/-- Operands of `XF.SCALE4`: form 0 is a 12-bit value in two bytes, form 1 the register form. -/
def decodeScale4 (bs : List Byte) : Decoded :=
  operand 1 bs fun form rest =>
    match form with
    | 0 => operand 2 rest fun v rest =>
        if v < 2 ^ 12 then .ok (.xfScale4 (.value (BitVec.ofNat 12 v)), rest) else .error .operandTooWide
    | 1 => .ok (.xfScale4 .entry, rest)
    | tag => .error (.noSuchForm tag)

/-- Operands of `XF.MINBIN`: form 0 is a u32, form 1 a u64, each followed by `max_len` in eight bytes, form 2 the
register form. -/
def decodeMinbin (bs : List Byte) : Decoded :=
  operand 1 bs fun form rest =>
    match form with
    | 0 => operand 4 rest fun v rest => operand 8 rest fun n rest => .ok (.xfMinbin (.u32 (BitVec.ofNat 32 v) n), rest)
    | 1 => operand 8 rest fun v rest => operand 8 rest fun n rest => .ok (.xfMinbin (.u64 (BitVec.ofNat 64 v) n), rest)
    | 2 => .ok (.xfMinbin .clkState, rest)
    | tag => .error (.noSuchForm tag)

/-- The operation a selector byte and the bytes after it stand for: the rows of R100 in order, from 1. -/
def decodeAs (code : Nat) (bs : List Byte) : Decoded :=
  match code with
  | 1 => decodeExtractor 8 (fun w m => .bfx64 (BitVec.ofNat 64 w) (BitVec.ofNat 64 m)) bs
  | 2 => decodeExtractor 4 (fun w m => .bfx32 (BitVec.ofNat 32 w) (BitVec.ofNat 32 m)) bs
  | 3 => decodeExtractor 2 (fun w m => .bfx16 (BitVec.ofNat 16 w) (BitVec.ofNat 16 m)) bs
  | 4 => decodeIdentity bs
  | 5 => decodeScale4 bs
  | 6 => decodeMinbin bs
  | 7 => .ok (.ldPktno, bs)
  | 8 => .ok (.ldStatus, bs)
  | 9 => .ok (.exClkState, bs)
  | 10 => .ok (.exI2cStatus, bs)
  | 11 => .ok (.exAdcClkSel, bs)
  | 12 => .ok (.exAsicEn, bs)
  | 13 => .ok (.decHdr, bs)
  | 14 => .ok (.ldCount, bs)
  | 15 => .ok (.exCount, bs)
  | 16 => .ok (.chkCount, bs)
  | 17 => .ok (.ldEntry, bs)
  | 18 => .ok (.exAdc, bs)
  | 19 => .ok (.exTsFpga, bs)
  | 20 => .ok (.exTsAsic, bs)
  | 21 => .ok (.exChannelId, bs)
  | 22 => .ok (.exAsicId, bs)
  | 23 => .ok (.exPileUp, bs)
  | 24 => .ok (.exOverflow, bs)
  | 25 => .ok (.decEntry, bs)
  | 26 => .ok (.chkLen, bs)
  | 27 => .ok (.start, bs)
  | 28 => .ok (.decode, bs)
  | 29 => .ok (.assertLayout, bs)
  | 30 => .ok (.summary, bs)
  | other => .error (.noSuchOperation other)

/-- Read one operation from the bytes of the operation port. Total; what it does not admit it rejects by name. -/
def decode : List Byte → Decoded
  | [] => .error .empty
  | code :: bs => decodeAs code.toNat bs

/-- The selector of an operation: its row number in R100's list, counted from 1. -/
def selector : Instr → Nat
  | .bfx64 _ _ => 1
  | .bfx32 _ _ => 2
  | .bfx16 _ _ => 3
  | .xfId _ _ => 4
  | .xfScale4 _ => 5
  | .xfMinbin _ => 6
  | .ldPktno => 7
  | .ldStatus => 8
  | .exClkState => 9
  | .exI2cStatus => 10
  | .exAdcClkSel => 11
  | .exAsicEn => 12
  | .decHdr => 13
  | .ldCount => 14
  | .exCount => 15
  | .chkCount => 16
  | .ldEntry => 17
  | .exAdc => 18
  | .exTsFpga => 19
  | .exTsAsic => 20
  | .exChannelId => 21
  | .exAsicId => 22
  | .exPileUp => 23
  | .exOverflow => 24
  | .decEntry => 25
  | .chkLen => 26
  | .start => 27
  | .decode => 28
  | .assertLayout => 29
  | .summary => 30

/-- The operand bytes of an operation. -/
def operandBytes : Instr → List Byte
  | .bfx64 word mask => leBytes 8 word.toNat ++ leBytes 8 mask.toNat
  | .bfx32 word mask => leBytes 4 word.toNat ++ leBytes 4 mask.toNat
  | .bfx16 word mask => leBytes 2 word.toNat ++ leBytes 2 mask.toNat
  | .xfId width v => leBytes 1 width ++ leBytes 8 v.toNat
  | .xfScale4 (.value v) => leBytes 1 0 ++ leBytes 2 v.toNat
  | .xfScale4 .entry => leBytes 1 1
  | .xfMinbin (.u32 v maxLen) => leBytes 1 0 ++ (leBytes 4 v.toNat ++ leBytes 8 maxLen)
  | .xfMinbin (.u64 v maxLen) => leBytes 1 1 ++ (leBytes 8 v.toNat ++ leBytes 8 maxLen)
  | .xfMinbin .clkState => leBytes 1 2
  | .ldPktno => []
  | .ldStatus => []
  | .exClkState => []
  | .exI2cStatus => []
  | .exAdcClkSel => []
  | .exAsicEn => []
  | .decHdr => []
  | .ldCount => []
  | .exCount => []
  | .chkCount => []
  | .ldEntry => []
  | .exAdc => []
  | .exTsFpga => []
  | .exTsAsic => []
  | .exChannelId => []
  | .exAsicId => []
  | .exPileUp => []
  | .exOverflow => []
  | .decEntry => []
  | .chkLen => []
  | .start => []
  | .decode => []
  | .assertLayout => []
  | .summary => []

/-- The words of an operation on the operation port. -/
def encode (i : Instr) : List Byte := BitVec.ofNat 8 (selector i) :: operandBytes i

/-- The longest operation in bytes: `XF.MINBIN` on a u64 (selector, form, 8, 8). -/
def longestOperation : Nat := 18

/-- The bytes of a word of `nbits` bits, first byte least significant, with zero bytes up to the longest operation. -/
def wordBytes (nbits w : Nat) : List Byte :=
  leBytes ((nbits + 7) / 8) w ++ List.replicate (longestOperation - (nbits + 7) / 8) 0

/-- What the decoder reads from a word numbered as `spec/opcode_table.json` numbers its bits. The table gives no row a
discriminating bit (R102), so only the operation port's own words select an operation (log entry 1). -/
def decodeTableWord (nbits w : Nat) : Option Instr :=
  match decode (wordBytes nbits w) with
  | .ok (i, _) => some i
  | .error _ => none

end Sys2Proof
end

