-- ==== Sys2Proof/Machine/State.lean ====
section
/-! DEFINITION. Everything the spec gives the machine to hold (`10_state.md`), as plain data.

NO VALUE. The spec's own state of a working register, an entry field, `r.outcome`, `idx` and the result is "no
value": R33 gives it as the value after reset, R214 has `START` WRITE it, and R26 says a model "may give them the type
`Option`". `none` is that state here; it is not zero ("it is not zero", R33). An operation that reads a place in that
state is no fault: it gets a free value (`Config.noValue`, log entry 2). -/

namespace Sys2Proof.Machine

/-- The frame buffer the host presents (`20_memory.md` R50): `len` bytes at offsets 0 to `len - 1`, read-only to the
block. `cells` lists the bytes that differ from `Memory.unlisted`, in one canonical form (`Memory.wf`). -/
structure Memory where
  len   : Nat
  cells : List Host.Cell
deriving DecidableEq, Repr

/-- What a byte of the buffer that no cell lists is: zero. It is the spec's own convention for writing a frame down ("A
frame is given sparsely: every byte not listed is `00`", `95_test_vectors.md`); it says nothing about a byte outside
the buffer, which does not exist (log entry 3). -/
abbrev Memory.unlisted : Byte := 0

/-- The canonical form: offsets strictly rising, all inside the buffer, and no cell that an unlisted byte would equal. -/
abbrev Memory.wf (m : Memory) : Prop :=
  m.cells.Pairwise (fun a b => a.1 < b.1) ∧ ∀ c ∈ m.cells, c.1 < m.len ∧ c.2 ≠ Memory.unlisted

/-- The sequencer's position (`10_state.md` R24). Codes 6 and 7 "cannot be written down". -/
inductive Phase where
  | idle | len | hdr | cnt | ent | done
deriving DecidableEq, Repr

/-- The kinds of error (`60_exceptions.md` R250 to R253). -/
inductive FrameError where
  | notThisProtocol | malformedCount | internalConsistency
deriving DecidableEq, Repr

/-- What `r.outcome` records (`10_state.md` R28, `60_exceptions.md` R250). `internalConsistency` is the unreachable
code 3 (log entry 13). -/
inductive OutcomeKind where
  | ok | notThisProtocol | malformedCount | internalConsistency
deriving DecidableEq, Repr

/-- The four status sub-fields of the result (`10_state.md` R21). -/
structure Status where
  clkState         : BitVec 5
  i2cStatus        : BitVec 4
  adcClkSel        : BitVec 2
  asicEnableStatus : BitVec 4
deriving DecidableEq, Repr

/-- One decoded data entry of the result (`10_state.md` R21, R27). -/
structure DataEntry where
  adc              : BitVec 12
  timestampFpga    : BitVec 31
  timestampAsic    : BitVec 12
  timestampAsicDisp : BitVec 14
  channelId        : BitVec 5
  asicId           : BitVec 2
  pileUp           : BitVec 1
  overflow         : BitVec 1
  index            : BitVec 8
deriving DecidableEq, Repr

/-- The decoded result (`10_state.md` R21); `clkStateStr` "rides beside status" (`45_frame.md` R210). The string is
held as the bytes `XF.MINBIN` writes, terminator included (`41_transforms.md` R145); bytes after it do not exist (U7). -/
structure Packet where
  packetNo    : BitVec 64
  status      : Status
  clkStateStr : List Byte
  entries     : List DataEntry
  dataCount   : BitVec 16
deriving DecidableEq, Repr

/-- One slot of the entry file (`10_state.md` R27); a field that no operation has written holds no value. -/
structure EntrySlot where
  adc              : Option (BitVec 12)
  timestampFpga    : Option (BitVec 31)
  timestampAsic    : Option (BitVec 12)
  timestampAsicDisp : Option (BitVec 14)
  channelId        : Option (BitVec 5)
  asicId           : Option (BitVec 2)
  pileUp           : Option (BitVec 1)
  overflow         : Option (BitVec 1)
  index            : Option (BitVec 8)
deriving DecidableEq, Repr

/-- A slot all of whose fields hold no value (R33). -/
def EntrySlot.empty : EntrySlot := ⟨none, none, none, none, none, none, none, none, none⟩

/-- The working registers (`10_state.md` R26). -/
structure Regs where
  len              : Option (BitVec 16)
  packetNo         : Option (BitVec 64)
  status24         : Option (BitVec 24)
  clkState         : Option (BitVec 5)
  i2cStatus        : Option (BitVec 4)
  adcClkSel        : Option (BitVec 2)
  asicEnableStatus : Option (BitVec 4)
  clkStateStr      : Option (List Byte)
  countRaw         : Option (BitVec 16)
  dataCount        : Option (BitVec 16)
  word             : Option (BitVec 64)
deriving DecidableEq, Repr

/-- All working registers holding no value (R33). -/
def Regs.empty : Regs := ⟨none, none, none, none, none, none, none, none, none, none, none⟩

/-- What an operation with a result but no destination register hands back to whoever applied it: the extractor, the
transforms on explicit operands and the summary string ("*State written.* None", R120). -/
inductive Returned where
  | bfx64 (v : BitVec 64)
  | bfx32 (v : BitVec 32)
  | bfx16 (v : BitVec 16)
  | identity (width : Nat) (v : BitVec width)
  | scaled (v : BitVec 14)
  | text (out : List Byte)
  | summary (line : List Char)
deriving DecidableEq, Repr

/-- The state of one block with the ports the host drives.
`rst`, `start`, `frameLen` and `frame` are the input ports of `10_state.md` R30; `opQueue` (the bytes waiting on the
operation port), `returned` and `epoch` are the MODEL's own fields (log entries 1, 4 and 2). `clkStrMaxlen` is the
build's `CLK_STR_MAXLEN` (`00_scope.md` R7), an argument of the model that no step writes (log entry 8). -/
structure State where
  phase       : Phase
  idx         : Option (BitVec 8)
  regs        : Regs
  ent         : Vector EntrySlot Config.maxData
  done        : Bool
  outcome     : Option OutcomeKind
  resultValid : Bool
  result      : Option Packet
  rst         : Bool
  start       : Bool
  frameLen    : BitVec 16
  frame       : Memory
  opQueue     : List Byte
  returned    : Option Returned
  epoch       : Nat
  clkStrMaxlen : Config.StrMaxlen
deriving DecidableEq, Repr

/-- Why a step stops with a fault. No legal launch that keeps the host's duties reaches one (`Safety.lean`). -/
inductive Fault where
  /-- START (and DECODE, which begins with it) while `phase` is LEN, HDR, CNT or ENT: "`stuck` for that input: no step
  is defined for it" (U12; R214, R302). SAFE: the hardware is not claimed to go on. -/
  | startWhileBusy
  /-- A load at `off` of `n` bytes that are not all in the buffer: "`MemRead(off, n)` is defined only when `off + n <=
  len(buffer)`" (R53), "offsets `0 .. len(buffer)` are addressable and nothing else is" (R50). Raised by the four
  loads; only a false `frame_len` (U13) or a load applied before `CHK.LEN` has passed gets there. SAFE. -/
  | offsetOutsideFrame (off n : Nat)
  /-- An entry field write, or a commit, that needs slot `k` of an entry file of 180 slots (R27). Raised by the entry
  extractions, `XF.SCALE4` in its register form, `DEC.ENTRY` and the commit; never in a legal run. SAFE. -/
  | noSuchSlot (k : Nat)
  /-- Phase ENT with `idx` above `r.data_count`: R215 has no row for it. Never in a legal run. SAFE. -/
  | noEnabledStep
  /-- SUMMARY with no committed result: "It is not defined for an error outcome: there is no `Packet`" (R240). SAFE. -/
  | noPacket
deriving DecidableEq, Repr

/-- Why a step is refused. -/
inductive Refusal where
  /-- an operation with no meaning in this model yet; raised by no arm -/
  | notModelled (mnemonic : String)
  /-- the operation port's bytes are no operation: "Nothing else is admitted" (R8); raised by the step. SAFE. -/
  | operationRejected (reason : OpReject)
  /-- ASSERT.LAYOUT on a configuration that breaks the layout sum: "a configuration that breaks the equation is
  refused" (D27, U10); unreachable in every build the model has. SAFE. -/
  | illegalConfiguration
deriving DecidableEq, Repr

/-- The result of a step or of an operation. -/
abbrev Result := Host.Outcome State Fault Refusal

/-- The machine right after reset (`10_state.md` R33, `70_reset_and_hazards.md` R290). The input ports at their rest:
no buffer presented, nothing asserted (DESIGN CHOICE, log entry 5: the spec gives inputs no reset value). The build's
parameter has the spec's default 8; another build's reset state is this one with another (log entry 8). -/
def State.reset : State where
  phase       := .idle
  idx         := none
  regs        := Regs.empty
  ent         := Vector.replicate Config.maxData EntrySlot.empty
  done        := false
  outcome     := none
  resultValid := false
  result      := none
  rst         := false
  start       := false
  frameLen    := 0
  frame       := { len := 0, cells := [] }
  opQueue     := []
  returned    := none
  epoch       := 0
  clkStrMaxlen := Config.defaultStrMaxlen

end Sys2Proof.Machine
end

