-- ==== Sys2Proof/Machine/Flags.lean ====
section
/-! DEFINITION. The flag-like state. The block has "no arithmetic condition codes: no operation produces a carry,
zero, sign or overflow flag" (`10_state.md` R28); what it has is `done`, `r.outcome` and `result_valid`, written
together when a transaction ends and cleared together when one begins. -/

namespace Sys2Proof.Machine

/-- The 2-bit outcome codes (`60_exceptions.md` R250). -/
def OutcomeKind.code : OutcomeKind → BitVec 2
  | .ok => 0
  | .notThisProtocol => 1
  | .malformedCount => 2
  | .internalConsistency => 3

/-- The outcome an error records (`60_exceptions.md` R250). -/
def FrameError.outcome : FrameError → OutcomeKind
  | .notThisProtocol => .notThisProtocol
  | .malformedCount => .malformedCount
  | .internalConsistency => .internalConsistency

/-- End the transaction: `r.outcome`, the result, `result_valid`, `done` and `phase` are written, nothing else. With a
packet it is the end of the commit (`45_frame.md` R219), with none the entry of an error (`60_exceptions.md` R256). -/
def State.endWith (s : State) (kind : OutcomeKind) (result : Option Packet) : State :=
  { s with outcome := some kind, result := result, resultValid := result.isSome, done := true, phase := .done }

/-- The `outcome` port: "meaningful only while `done == 1`" (`10_state.md` R30). -/
def State.outcomePort (s : State) : Option (BitVec 2) :=
  if s.done then s.outcome.map OutcomeKind.code else none

/-- The result outputs: they "carry the `Packet` only while `result_valid == 1`" (`10_state.md` R30; U6). -/
def State.resultPort (s : State) : Option Packet := if s.resultValid then s.result else none

end Sys2Proof.Machine
end

