-- ==== Sys2Proof/Machine/Operands.lean ====
section
/-! DEFINITION. Operands: the bit-field primitive and its parts, the mask literals, the byte offsets, and the values
an operation reads from the named registers. -/

namespace Sys2Proof.Machine

/-- The index of the first set bit at or above `i`, looking at `fuel` bits. -/
def ctzFrom {w : Nat} (v : BitVec w) (i : Nat) : Nat → Nat
  | 0 => i
  | fuel + 1 => if v.getLsbD i then i else ctzFrom v (i + 1) fuel

/-- `ctz(v)`: "the index of the least-significant 1 bit of a non-zero" value (`00_scope.md` R12). The value at 0 is
never used (D10). -/
def ctz {w : Nat} (v : BitVec w) : Nat := ctzFrom v 0 w

/-- One more than the index of the last set bit below `i`, or 0. -/
def bitlenBelow {w : Nat} (v : BitVec w) : Nat → Nat
  | 0 => 0
  | i + 1 => if v.getLsbD i then i + 1 else bitlenBelow v i

/-- `bitlen(v)`: "one more than the index of the most-significant 1 bit of a non-zero" value (`00_scope.md` R12). -/
def bitlen {w : Nat} (v : BitVec w) : Nat := bitlenBelow v w

/-- The Bit-Field Extractor `EXTRACT_W` (`40_extractor.md` R120), at every width. -/
def extract {w : Nat} (word mask : BitVec w) : BitVec w :=
  if mask = 0 then 0 else (word &&& mask) >>> ctz mask

/-! The mask literals (`30_encoding.md` R88, R91, R93). -/

def clkStateMask : BitVec 24 := 0x1F0000
def i2cStatusMask : BitVec 24 := 0x000F00
def adcClkSelMask : BitVec 24 := 0x000030
def asicEnableStatusMask : BitVec 24 := 0x00000F
def adcMask : BitVec 64 := 0xFFF0000000000000
def timestampFpgaMask : BitVec 64 := 0x000FFFFFFFE00000
def timestampAsicMask : BitVec 64 := 0x00000000001FFE00
def channelIdMask : BitVec 64 := 0x00000000000001F0
def asicIdMask : BitVec 64 := 0x000000000000000C
def pileUpMask : BitVec 64 := 0x0000000000000002
def overflowMask : BitVec 64 := 0x0000000000000001
def dataCountMask : BitVec 16 := 0xFFF8

/-! The byte offsets (`00_scope.md` R6). -/

def offPacketNo : Nat := 0
def offStatus24 : Nat := 13
def offCount : Nat := Config.packetSize - 2
def offSlot (i : Nat) : Nat := 16 + 8 * i

/-- A status field: the 24-bit value and mask carried at 64 bits (`42_header.md` R164, D11), extracted, and narrowed to
the field's width. -/
def statusField {w : Nat} (status24 mask : BitVec 24) : BitVec w :=
  (extract (status24.setWidth 64) (mask.setWidth 64)).setWidth w

/-- A field of a data word (`44_data_entry.md` R191). -/
def entryField {w : Nat} (word mask : BitVec 64) : BitVec w := (extract word mask).setWidth w

/-- `v[hi:lo]` (`00_scope.md` R10): bits `lo` to `hi`, bit `lo` becoming bit 0. -/
def bits {w : Nat} (hi lo : Nat) (v : BitVec w) : BitVec (hi - lo + 1) := v.extractLsb' lo (hi - lo + 1)

/-! The byte and the number read at an offset. -/

/-- The byte of the buffer at an offset inside it (`20_memory.md` R50). -/
def Memory.byte (m : Memory) (a : Nat) : Byte := (m.cells.lookup a).getD Memory.unlisted

/-- The byte at an offset, where there is one: "offsets `0 .. len(buffer)` are addressable and nothing else is" (R50). -/
def Memory.byte? (m : Memory) (a : Nat) : Option Byte := if a < m.len then some (m.byte a) else none

/-- `MemRead(off, n)` as a number: little-endian, the lowest offset least significant (`20_memory.md` R51). Byte order
is decided here and nowhere else. -/
def Memory.readLE (m : Memory) (off : Nat) : Nat → Nat
  | 0 => 0
  | n + 1 => (m.byte off).toNat + 256 * m.readLE (off + 1) n

/-- The cells of a run of bytes that starts at offset `a`: those that are not as an unlisted byte reads. -/
def cellsFrom (a : Nat) : List Byte → List Host.Cell
  | [] => []
  | b :: bs => if b = Memory.unlisted then cellsFrom (a + 1) bs else (a, b) :: cellsFrom (a + 1) bs

/-- The buffer that holds a byte sequence. -/
def Memory.ofBytes (buf : List Byte) : Memory := { len := buf.length, cells := cellsFrom 0 buf }

/-- A buffer length as the `frame_len` port carries it: `min(len, 65535)` (`10_state.md` R30, D3). -/
def saturatedLen (len : Nat) : BitVec 16 := BitVec.ofNat 16 (min len 65535)

/-! Reading a named register. A place that holds no value gives a free value (log entry 2); no rule of the spec reads
one before it is written (`10_state.md` R26). -/

/-- The value of a place, or the free value it has while it holds none. -/
def valueOr {w : Nat} (held : Option (BitVec w)) (epoch : Nat) (p : Config.Place) : BitVec w :=
  held.getD (Config.noValue epoch p w)

def State.lenValue (s : State) : BitVec 16 := valueOr s.regs.len s.epoch .len
def State.packetNoValue (s : State) : BitVec 64 := valueOr s.regs.packetNo s.epoch .packetNo
def State.status24Value (s : State) : BitVec 24 := valueOr s.regs.status24 s.epoch .status24
def State.clkStateValue (s : State) : BitVec 5 := valueOr s.regs.clkState s.epoch .clkState
def State.i2cStatusValue (s : State) : BitVec 4 := valueOr s.regs.i2cStatus s.epoch .i2cStatus
def State.adcClkSelValue (s : State) : BitVec 2 := valueOr s.regs.adcClkSel s.epoch .adcClkSel
def State.asicEnableStatusValue (s : State) : BitVec 4 := valueOr s.regs.asicEnableStatus s.epoch .asicEnableStatus
def State.clkStateStrValue (s : State) : List Byte := s.regs.clkStateStr.getD (Config.noText s.epoch)
def State.countRawValue (s : State) : BitVec 16 := valueOr s.regs.countRaw s.epoch .countRaw
def State.dataCountValue (s : State) : BitVec 16 := valueOr s.regs.dataCount s.epoch .dataCount
def State.wordValue (s : State) : BitVec 64 := valueOr s.regs.word s.epoch .word
def State.idxValue (s : State) : BitVec 8 := valueOr s.idx s.epoch .idx

/-- The data entry that slot `k` holds, field by field. -/
def EntrySlot.read (e : EntrySlot) (epoch k : Nat) : DataEntry where
  adc               := valueOr e.adc epoch (.slot k .adc)
  timestampFpga     := valueOr e.timestampFpga epoch (.slot k .timestampFpga)
  timestampAsic     := valueOr e.timestampAsic epoch (.slot k .timestampAsic)
  timestampAsicDisp := valueOr e.timestampAsicDisp epoch (.slot k .timestampAsicDisp)
  channelId         := valueOr e.channelId epoch (.slot k .channelId)
  asicId            := valueOr e.asicId epoch (.slot k .asicId)
  pileUp            := valueOr e.pileUp epoch (.slot k .pileUp)
  overflow          := valueOr e.overflow epoch (.slot k .overflow)
  index             := valueOr e.index epoch (.slot k .index)

/-- A slot that holds a data entry whole. -/
def EntrySlot.of (d : DataEntry) : EntrySlot :=
  ⟨some d.adc, some d.timestampFpga, some d.timestampAsic, some d.timestampAsicDisp, some d.channelId, some d.asicId,
    some d.pileUp, some d.overflow, some d.index⟩

end Sys2Proof.Machine
end

