-- ==== Sys2Proof/Machine/Ops.lean ====
section
/-! DEFINITION. The named operations over the state that the meanings are written with. -/

namespace Sys2Proof.Machine

/-- One operation after another: the second runs on the first one's next state. -/
def andThen (r : Result) (k : State → Result) : Result :=
  match r with
  | .next s => k s
  | .fault f => .fault f
  | .refused x => .refused x

/-! The named updates. -/

/-- `phase <- p` (`00_scope.md` R13). -/
def State.withPhase (s : State) (p : Phase) : State := { s with phase := p }

/-- `idx <- i`. -/
def State.withIdx (s : State) (i : BitVec 8) : State := { s with idx := some i }

/-- Writes of working registers. -/
def State.withRegs (s : State) (r : Regs) : State := { s with regs := r }

/-- Write of entry slot `k`. -/
def State.withSlot (s : State) (k : Fin Config.maxData) (e : EntrySlot) : State :=
  { s with ent := s.ent.set k.val e k.isLt }

/-- The value an operation without a destination register hands back (log entry 4). -/
def State.withReturned (s : State) (v : Returned) : State := { s with returned := some v }

/-- The operation port after an operation's bytes have been taken from it. -/
def State.withQueue (s : State) (rest : List Byte) : State := { s with opQueue := rest }

/-- A `start` that has been taken is no longer asserted (log entry 6). -/
def State.takeStart (s : State) : State := { s with start := false }

/-! Shared operations. -/

/-- A load: `n` bytes at `off`, little-endian, as a `u<w>`. No byte outside the buffer is read: such a load stops
(`20_memory.md` R50, R53). -/
def load (s : State) (off n w : Nat) (k : BitVec w → Result) : Result :=
  if off + n ≤ s.frame.len then k (BitVec.ofNat w (s.frame.readLE off n)) else .fault (.offsetOutsideFrame off n)

/-- `ent[k].<field> <- v`: rewrite slot `k` of the 180 (`10_state.md` R27). -/
def writeSlot (s : State) (k : Nat) (f : EntrySlot → EntrySlot) : Result :=
  if h : k < Config.maxData then .next (s.withSlot ⟨k, h⟩ (f s.ent[k])) else .fault (.noSuchSlot k)

/-- `raise E` (`60_exceptions.md` R256), the one way an error is taken: the outcome code is recorded, the result
withdrawn, `result_valid` <- 0, `done` <- 1, `phase` <- DONE. "Nothing else happens": no saved position, no handler. -/
def State.raise (s : State) (e : FrameError) : State := s.endWith e.outcome none

/-- The way back from an outcome (`60_exceptions.md` R259: "There is no return instruction"; an outcome is held "until
the host starts the next transaction"), and the start of every transaction: `START`'s work (`45_frame.md` R214). The
previous outcome and result are discarded and everything but `r.len` holds no value. -/
def State.beginTransaction (s : State) (frameLen : BitVec 16) : State :=
  { s with
    phase       := .len
    idx         := none
    regs        := { Regs.empty with len := some frameLen }
    ent         := Vector.replicate Config.maxData EntrySlot.empty
    done        := false
    outcome     := none
    resultValid := false
    result      := none
    epoch       := s.epoch + 1 }

/-- `START` is "enabled only when `phase` is `IDLE` or `DONE`" (`45_frame.md` R214). -/
def State.startEnabled (s : State) : Bool := s.phase == .idle || s.phase == .done

/-- `rst` (`70_reset_and_hazards.md` R290): every register and the result as after reset, the frame and the
constants unchanged. The ports are the host's; the `rst` that has been taken is no longer asserted (log entry 6). -/
def State.applyReset (s : State) : State :=
  { State.reset with
    start    := s.start
    frameLen := s.frameLen
    frame    := s.frame
    opQueue  := s.opQueue
    epoch    := s.epoch + 1
    clkStrMaxlen := s.clkStrMaxlen }

/-- The packet a commit assembles from the working registers and the first `n` entries (`45_frame.md` R219). -/
def State.assembled (s : State) (n : Nat) (h : n ≤ Config.maxData) : Packet where
  packetNo    := s.packetNoValue
  status      := ⟨s.clkStateValue, s.i2cStatusValue, s.adcClkSelValue, s.asicEnableStatusValue⟩
  clkStateStr := s.clkStateStrValue
  entries     := List.ofFn fun k : Fin n => (s.ent[k.val]'(Nat.lt_of_lt_of_le k.isLt h)).read s.epoch k.val
  dataCount   := s.dataCountValue

/-- Commit (`45_frame.md` R219): the whole result appears at once, with outcome `OK`. -/
def commit (s : State) : Result :=
  if h : s.dataCountValue.toNat ≤ Config.maxData then
    .next (s.endWith .ok (some (s.assembled s.dataCountValue.toNat h)))
  else .fault (.noSuchSlot (s.dataCountValue.toNat - 1))

/-- The host's move before a transaction (`70_reset_and_hazards.md` R292): the buffer, its true saturated length, and
`start`. Not a step of the block. -/
def State.present (s : State) (buf : List Byte) : State :=
  { s with frame := Memory.ofBytes buf, frameLen := saturatedLen buf.length, start := true }

end Sys2Proof.Machine
end

