-- ==== Sys2Proof/Machine/Extractor.lean ====
section
/-! DEFINITION. The extractor operations `BFX64`, `BFX32`, `BFX16` (`40_extractor.md` R121 to R123). Pure: "No flags,
no exceptions"; the result is handed back. -/

namespace Sys2Proof.Machine

/-- `BFX64` (R121). -/
def execBfx64 (word mask : BitVec 64) (s : State) : Result := .next (s.withReturned (.bfx64 (extract word mask)))

/-- `BFX32` (R122): provided, and used by no step of the Frame Decoder. -/
def execBfx32 (word mask : BitVec 32) (s : State) : Result := .next (s.withReturned (.bfx32 (extract word mask)))

/-- `BFX16` (R123). -/
def execBfx16 (word mask : BitVec 16) (s : State) : Result := .next (s.withReturned (.bfx16 (extract word mask)))

end Sys2Proof.Machine
end

