-- ==== Sys2Proof/Machine/Count.lean ====
section
/-! DEFINITION. The count field decoder (`43_count.md`): `LD.COUNT`, `EX.COUNT`, `CHK.COUNT`. -/

namespace Sys2Proof.Machine

/-- `LD.COUNT` (R180): `r.count_raw <- MemRead(1456, 2)`. In the block's own sequence it runs only once `CHK.LEN` has
passed (R53); applied by itself it runs before that too: DESIGN CHOICE, log entry 11. -/
def execLdCount (s : State) : Result :=
  load s offCount 2 16 fun v => .next (s.withRegs { s.regs with countRaw := some v })

/-- `EX.COUNT` (R182): `r.data_count <- BFX16(r.count_raw, 0xFFF8)`. -/
def execExCount (s : State) : Result :=
  .next (s.withRegs { s.regs with dataCount := some (extract s.countRawValue dataCountMask) })

/-- `CHK.COUNT` (R184): above 180, `raise MalformedCount`; else `idx <- 0` and `phase <- ENT`. -/
def execChkCount (s : State) : Result :=
  if s.dataCountValue.toNat > Config.maxData then .next (s.raise .malformedCount)
  else .next ((s.withIdx 0).withPhase .ent)

end Sys2Proof.Machine
end

