-- ==== Sys2Proof/Machine/Transforms.lean ====
section
/-! DEFINITION. The display transforms `XF.ID`, `XF.SCALE4`, `XF.MINBIN` (`41_transforms.md`). A transform is pure and
cannot fail (R140). -/

namespace Sys2Proof.Machine

/-- `scale_timestamp_asic` (R143): `zext_14(v) << 2`, 14 bits so that nothing is lost. -/
def scale4 (v : BitVec 12) : BitVec 14 := v.setWidth 14 <<< 2

/-! The characters of a rendering (R145; their byte values are the spec's GK1 and GK2, log entry 12). -/

def charZero : Byte := 0x30
def charOne : Byte := 0x31
def charMarker : Byte := 0x62
def charTerm : Byte := 0x00

/-- How many bits a rendering of `v` needs, the source's `bits_to_print` (R145). -/
def bitsToPrint {w : Nat} (v : BitVec w) : Nat := if v = 0 then 1 else bitlen v

/-- The first `d` of the `bitsToPrint v` binary digits of `v`, most significant first. -/
def minbinDigits {w : Nat} (v : BitVec w) (d : Nat) : List Byte :=
  (List.range d).map fun k => if v.getLsbD (bitsToPrint v - 1 - k) then charOne else charZero

/-- `minimal_binary_string(v, max_len)` (R145), with the marker condition `n + 2 <= max_len` of `90_conflicts.md` C2;
the bytes written, terminator included. At `max_len` 0 nothing is written (D14). -/
def minbin {w : Nat} (v : BitVec w) (maxLen : Nat) : List Byte :=
  if maxLen = 0 then []
  else
    minbinDigits v (min (bitsToPrint v) (maxLen - 1)) ++
      (if bitsToPrint v + 2 ≤ maxLen then [charMarker] else []) ++ [charTerm]

/-- The rendering of `clk_state` (R147) in a build whose `CLK_STR_MAXLEN` is `c`. -/
def clkStateText (c : Config.StrMaxlen) (v : BitVec 5) : List Byte := minbin (v.setWidth 32) c.val

/-- `XF.ID` (R141): "the same value at the same width". -/
def execXfId (width : Nat) (v : BitVec width) (s : State) : Result := .next (s.withReturned (.identity width v))

/-- `ent[k].timestamp_asic_disp <- XF.SCALE4(ent[k].timestamp_asic)` (R194) on one slot. -/
def scaleSlot (e : EntrySlot) (epoch k : Nat) : EntrySlot :=
  { e with timestampAsicDisp := some (scale4 (valueOr e.timestampAsic epoch (.slot k .timestampAsic))) }

/-- `XF.SCALE4` (R143): on an explicit value, or on `ent[idx]` as R194 uses it (log entry 10). -/
def execXfScale4 (arg : Scale4Arg) (s : State) : Result :=
  match arg with
  | .value v => .next (s.withReturned (.scaled (scale4 v)))
  | .entry => writeSlot s s.idxValue.toNat fun e => scaleSlot e s.epoch s.idxValue.toNat

/-- `XF.MINBIN` (R145): on an explicit u32 or u64, or on `r.clk_state` as R147 uses it (log entry 10). -/
def execXfMinbin (arg : MinbinArg) (s : State) : Result :=
  match arg with
  | .u32 v maxLen => .next (s.withReturned (.text (minbin v maxLen)))
  | .u64 v maxLen => .next (s.withReturned (.text (minbin v maxLen)))
  | .clkState => .next (s.withRegs { s.regs with clkStateStr := some (clkStateText s.clkStrMaxlen s.clkStateValue) })

end Sys2Proof.Machine
end

