-- ==== Sys2Proof/Machine/Entry.lean ====
section
/-! DEFINITION. The data-entry record decoder (`44_data_entry.md`): `LD.ENTRY`, the seven extractions and `DEC.ENTRY`.
Each extraction reads `r.word` and writes one field of `ent[idx]` (R191); `EX.TS_ASIC` also its display value. -/

namespace Sys2Proof.Machine

/-- `LD.ENTRY` (R190): `r.word <- MemRead(16 + 8*idx, 8)`; `idx` is not modified. In the block's own sequence it "never
runs with `idx >= data_count`"; applied by itself at such an index it loads all the same: DESIGN CHOICE, log entry 11. -/
def execLdEntry (s : State) : Result :=
  load s (offSlot s.idxValue.toNat) 8 64 fun v => .next (s.withRegs { s.regs with word := some v })

/-- `EX.ADC` (R192). -/
def execExAdc (s : State) : Result :=
  writeSlot s s.idxValue.toNat fun e => { e with adc := some (entryField s.wordValue adcMask) }

/-- `EX.TS_FPGA` (R193). -/
def execExTsFpga (s : State) : Result :=
  writeSlot s s.idxValue.toNat fun e => { e with timestampFpga := some (entryField s.wordValue timestampFpgaMask) }

/-- `EX.TS_ASIC` (R194): the canonical value, then `XF.SCALE4` of it as the display value. -/
def execExTsAsic (s : State) : Result :=
  andThen
    (writeSlot s s.idxValue.toNat fun e => { e with timestampAsic := some (entryField s.wordValue timestampAsicMask) })
    fun s => execXfScale4 .entry s

/-- `EX.CHANNEL_ID` (R195). -/
def execExChannelId (s : State) : Result :=
  writeSlot s s.idxValue.toNat fun e => { e with channelId := some (entryField s.wordValue channelIdMask) }

/-- `EX.ASIC_ID` (R196). -/
def execExAsicId (s : State) : Result :=
  writeSlot s s.idxValue.toNat fun e => { e with asicId := some (entryField s.wordValue asicIdMask) }

/-- `EX.PILE_UP` (R197). -/
def execExPileUp (s : State) : Result :=
  writeSlot s s.idxValue.toNat fun e => { e with pileUp := some (entryField s.wordValue pileUpMask) }

/-- `EX.OVERFLOW` (R198): a bit of the sample record, copied; no arithmetic overflow. -/
def execExOverflow (s : State) : Result :=
  writeSlot s s.idxValue.toNat fun e => { e with overflow := some (entryField s.wordValue overflowMask) }

/-- `DEC.ENTRY` (R200): the eight operations above in order, then `ent[idx].index <- idx`. R200 "requires idx <
r.data_count", which the block's own sequence grants (`45_frame.md` R215) and this meaning does not check: applied by
itself at an index from `r.data_count` to 179 it decodes and writes that slot. DESIGN CHOICE, log entry 11. -/
def execDecEntry (s : State) : Result :=
  andThen (execLdEntry s) fun s =>
  andThen (execExAdc s) fun s =>
  andThen (execExTsFpga s) fun s =>
  andThen (execExTsAsic s) fun s =>
  andThen (execExChannelId s) fun s =>
  andThen (execExAsicId s) fun s =>
  andThen (execExPileUp s) fun s =>
  andThen (execExOverflow s) fun s =>
  writeSlot s s.idxValue.toNat fun e => { e with index := some s.idxValue }

end Sys2Proof.Machine
end

