-- ==== Sys2Proof/Machine/FrameDecoder.lean ====
section
/-! DEFINITION. The Frame Decoder's function and gates (`45_frame.md`): `DECODE` as the function R210 states, `CHK.LEN`,
`START` and `ASSERT.LAYOUT`. -/

namespace Sys2Proof.Machine

/-- `LE(off, n)` of R210: `MemRead` on the buffer, as a `u<w>`. -/
def Memory.le (m : Memory) (off n w : Nat) : BitVec w := BitVec.ofNat w (m.readLE off n)

/-- The entry R210 makes of a data word, by bit slices. -/
def entryOf (w : BitVec 64) (i : Nat) : DataEntry where
  adc               := bits 63 52 w
  timestampFpga     := bits 51 21 w
  timestampAsic     := bits 20 9 w
  timestampAsicDisp := BitVec.ofNat 14 ((bits 20 9 w).toNat * 4)
  channelId         := bits 8 4 w
  asicId            := bits 3 2 w
  pileUp            := bits 1 1 w
  overflow          := bits 0 0 w
  index             := BitVec.ofNat 8 i

/-- The status R210 makes of the 24-bit value, by bit slices. -/
def statusOf (status24 : BitVec 24) : Status where
  clkState         := bits 20 16 status24
  i2cStatus        := bits 11 8 status24
  adcClkSel        := bits 5 4 status24
  asicEnableStatus := bits 3 0 status24

/-- The count R210 makes of a buffer. -/
def countOf (m : Memory) : BitVec 16 := m.le offCount 2 16 >>> 3

/-- `DECODE` as a function of the buffer (R210, steps 1 to 5), written with bit slices and not with the extractor: the
normative function (D1), which the operations and the step machine are to agree with. `c` is the build's
`CLK_STR_MAXLEN`. -/
def decodeFrame (c : Config.StrMaxlen) (m : Memory) : Except FrameError Packet :=
  if m.len ≠ Config.packetSize then .error .notThisProtocol
  else if (countOf m).toNat > Config.maxData then .error .malformedCount
  else .ok
    { packetNo    := m.le 0 8 64
      status      := statusOf (m.le 13 3 24)
      clkStateStr := clkStateText c (statusOf (m.le 13 3 24)).clkState
      entries     := (List.range (countOf m).toNat).map fun i => entryOf (m.le (16 + 8 * i) 8 64) i
      dataCount   := countOf m }

/-- `CHK.LEN` (R211): any length but 1458 is `raise NotThisProtocol`; else `phase <- HDR`. It reads no byte. -/
def execChkLen (s : State) : Result :=
  if s.lenValue.toNat ≠ Config.packetSize then .next (s.raise .notThisProtocol) else .next (s.withPhase .hdr)

/-- `START` (R214): begins a transaction with the length on the `frame_len` port, in IDLE or DONE; elsewhere it "is
given no step" (R302, U12). R214 enables it only when `start` is asserted: the block's own step looks at that port (log
entry 6) and this meaning does not, so that START applied by itself through the operation port begins a transaction
also without `start`, and leaves the port as it is. DESIGN CHOICE, log entry 11. -/
def execStart (s : State) : Result :=
  if s.startEnabled then .next (s.beginTransaction s.frameLen) else .fault .startWhileBusy

/-- `assert_static(8 + 8 + MAX_DATA*8 + 2 == PACKET_SIZE)` (R222). -/
def layoutHolds (p : Config.Params) : Bool := 8 + 8 + p.maxData * 8 + 2 == p.packetSize

/-- A configuration the model builds (R222, and U8: `CLK_STR_MAXLEN` at least 1). -/
def legalConfiguration (p : Config.Params) : Bool := layoutHolds p && 1 ≤ p.clkStrMaxlen

/-- The parameters of the build. -/
def State.params (s : State) : Config.Params := Config.params s.clkStrMaxlen

/-- `ASSERT.LAYOUT` (R222): a check on constants, "not a runtime branch"; a configuration that breaks the sum is
refused (D27; log entry 13). -/
def execAssertLayout (s : State) : Result :=
  if layoutHolds s.params then .next s else .refused .illegalConfiguration

end Sys2Proof.Machine
end

