-- ==== Sys2Proof/Machine/Header.lean ====
section
/-! DEFINITION. The header record decoder (`42_header.md`): `LD.PKTNO`, `LD.STATUS`, the four status extractions and
`DEC.HDR`. Each extraction "writes one working register and nothing else" (R164). -/

namespace Sys2Proof.Machine

/-- `LD.PKTNO` (R160): `r.packet_no <- MemRead(0, 8)`. In the block's own sequence it runs only once `CHK.LEN` has
passed (R53); applied by itself it runs before that too: DESIGN CHOICE, log entry 11. -/
def execLdPktno (s : State) : Result :=
  load s offPacketNo 8 64 fun v => .next (s.withRegs { s.regs with packetNo := some v })

/-- `LD.STATUS` (R162): `r.status24 <- MemRead(13, 3)`; before `CHK.LEN` as `LD.PKTNO` (log entry 11). -/
def execLdStatus (s : State) : Result :=
  load s offStatus24 3 24 fun v => .next (s.withRegs { s.regs with status24 := some v })

/-- `EX.CLK_STATE` (R165). -/
def execExClkState (s : State) : Result :=
  .next (s.withRegs { s.regs with clkState := some (statusField s.status24Value clkStateMask) })

/-- `EX.I2C_STATUS` (R166). -/
def execExI2cStatus (s : State) : Result :=
  .next (s.withRegs { s.regs with i2cStatus := some (statusField s.status24Value i2cStatusMask) })

/-- `EX.ADC_CLK_SEL` (R167). -/
def execExAdcClkSel (s : State) : Result :=
  .next (s.withRegs { s.regs with adcClkSel := some (statusField s.status24Value adcClkSelMask) })

/-- `EX.ASIC_EN` (R168). -/
def execExAsicEn (s : State) : Result :=
  .next (s.withRegs { s.regs with asicEnableStatus := some (statusField s.status24Value asicEnableStatusMask) })

/-- `DEC.HDR` (R170): the six operations above and `XF.MINBIN`, in the order R170 gives. Its precondition, that `CHK.LEN`
has passed, is granted by the block's own sequence and not checked here: DESIGN CHOICE, log entry 11. -/
def execDecHdr (s : State) : Result :=
  andThen (execLdPktno s) fun s =>
  andThen (execLdStatus s) fun s =>
  andThen (execExClkState s) fun s =>
  andThen (execExI2cStatus s) fun s =>
  andThen (execExAdcClkSel s) fun s =>
  andThen (execExAsicEn s) fun s =>
  execXfMinbin .clkState s

end Sys2Proof.Machine
end

