-- ==== Sys2Proof/Machine/Sequencer.lean ====
section
/-! DEFINITION. The block's own sequence (`45_frame.md` R215): one step per phase visit, and `DECODE` as the operation
that runs a whole transaction. The order is hardwired: nothing in the frame "selects, adds or alters an operation,
except that `data_count` sets how many times the entry decode repeats" (`20_memory.md` R66). -/

namespace Sys2Proof.Machine

/-- Phase CNT: `LD.COUNT; EX.COUNT; CHK.COUNT` (R215, `43_count.md` R186). -/
def countStep (s : State) : Result :=
  andThen (execLdCount s) fun s => andThen (execExCount s) fun s => execChkCount s

/-- Phase ENT below the count: `DEC.ENTRY; idx <- idx + 1` (R215). -/
def entryStep (s : State) : Result :=
  andThen (execDecEntry s) fun s => .next (s.withIdx (s.idxValue + 1))

/-- The row of R215's table for the present phase. IDLE and DONE have no work: the block waits for `START`, and
a step there changes nothing (log entry 14). -/
def phaseStep (s : State) : Result :=
  match s.phase with
  | .idle => .next s
  | .len => execChkLen s
  | .hdr => andThen (execDecHdr s) fun s => .next (s.withPhase .cnt)
  | .cnt => countStep s
  | .ent =>
      if s.idxValue.toNat < s.dataCountValue.toNat then entryStep s
      else if s.idxValue.toNat = s.dataCountValue.toNat then commit s
      else .fault .noEnabledStep
  | .done => .next s

/-- Up to `fuel` steps of R215's table, until the transaction has ended. -/
def runToDone : Nat → State → Result
  | 0, s => .next s
  | fuel + 1, s => if s.phase = .done then .next s else andThen (phaseStep s) (runToDone fuel)

/-- The most steps a transaction takes after START: `4 + 180` (R216). -/
def maxSteps : Nat := 184

/-- `DECODE` (R210) as an operation: the whole transaction on the presented buffer, with the buffer's own length. Like
`START` it begins one, so it has no step while one is running (R302). DESIGN CHOICE, log entry 9. -/
def execDecode (s : State) : Result :=
  if s.startEnabled then runToDone maxSteps (s.beginTransaction (saturatedLen s.frame.len))
  else .fault .startWhileBusy

end Sys2Proof.Machine
end

