-- ==== Sys2Proof/Machine/Summary.lean ====
section
/-! DEFINITION. The summary projection (`46_summary.md`), host side: a pure function of a committed result. -/

namespace Sys2Proof.Machine

/-- A decimal digit as a character. -/
def digitChar (d : Nat) : Char := Char.ofNat (48 + d)

/-- The decimal digits of `v`, most significant first, with fuel for that many digits. -/
def decimalDigits : Nat → Nat → List Nat
  | 0, _ => []
  | fuel + 1, v => if v < 10 then [v] else decimalDigits fuel (v / 10) ++ [v % 10]

/-- `dec(v)` (R240, GK3; log entry 16): the decimal numeral, no sign, no leading zero. A u64 has
"up to 20 decimal digits". -/
def dec {w : Nat} (v : BitVec w) : List Char := (decimalDigits 20 v.toNat).map digitChar

/-- `SUMMARY(p)` (R240). -/
def summaryLine (p : Packet) : List Char :=
  ['n', 'o', ':', ' '] ++ dec p.packetNo ++ [',', ' ', 's', 'i', 'z', 'e', ':', ' '] ++ dec p.dataCount

/-- `SUMMARY` (R240) on the committed result; "not defined for an error outcome: there is no `Packet`". -/
def execSummary (s : State) : Result :=
  match s.result with
  | some p => .next (s.withReturned (.summary (summaryLine p)))
  | none => .fault .noPacket

end Sys2Proof.Machine
end

