-- ==== Sys2Proof/Machine/Dispatch.lean ====
section
/-! DEFINITION. One arm per operation. An operation applied by itself runs in whatever phase the block is in, and
whether or not what its rule takes for granted holds; START and DECODE look at the phase, but not at the `start` port
(log entries 11 and 9). -/

namespace Sys2Proof.Machine

def exec (i : Instr) (s : State) : Host.Outcome State Fault Refusal :=
  match i with
  | .bfx64 word mask => Sys2Proof.Machine.execBfx64 word mask s
  | .bfx32 word mask => Sys2Proof.Machine.execBfx32 word mask s
  | .bfx16 word mask => Sys2Proof.Machine.execBfx16 word mask s
  | .xfId width v => Sys2Proof.Machine.execXfId width v s
  | .xfScale4 arg => Sys2Proof.Machine.execXfScale4 arg s
  | .xfMinbin arg => Sys2Proof.Machine.execXfMinbin arg s
  | .ldPktno => Sys2Proof.Machine.execLdPktno s
  | .ldStatus => Sys2Proof.Machine.execLdStatus s
  | .exClkState => Sys2Proof.Machine.execExClkState s
  | .exI2cStatus => Sys2Proof.Machine.execExI2cStatus s
  | .exAdcClkSel => Sys2Proof.Machine.execExAdcClkSel s
  | .exAsicEn => Sys2Proof.Machine.execExAsicEn s
  | .decHdr => Sys2Proof.Machine.execDecHdr s
  | .ldCount => Sys2Proof.Machine.execLdCount s
  | .exCount => Sys2Proof.Machine.execExCount s
  | .chkCount => Sys2Proof.Machine.execChkCount s
  | .ldEntry => Sys2Proof.Machine.execLdEntry s
  | .exAdc => Sys2Proof.Machine.execExAdc s
  | .exTsFpga => Sys2Proof.Machine.execExTsFpga s
  | .exTsAsic => Sys2Proof.Machine.execExTsAsic s
  | .exChannelId => Sys2Proof.Machine.execExChannelId s
  | .exAsicId => Sys2Proof.Machine.execExAsicId s
  | .exPileUp => Sys2Proof.Machine.execExPileUp s
  | .exOverflow => Sys2Proof.Machine.execExOverflow s
  | .decEntry => Sys2Proof.Machine.execDecEntry s
  | .chkLen => Sys2Proof.Machine.execChkLen s
  | .start => Sys2Proof.Machine.execStart s
  | .decode => Sys2Proof.Machine.execDecode s
  | .assertLayout => Sys2Proof.Machine.execAssertLayout s
  | .summary => Sys2Proof.Machine.execSummary s

end Sys2Proof.Machine
end

