-- ==== Sys2Proof/Machine/Fetch.lean ====
section
/-! DEFINITION. Taking the next operation from the operation port (log entry 1). The block itself fetches nothing
(`20_memory.md` R66): with an empty port the sequence of `Sequencer.lean` runs. -/

namespace Sys2Proof.Machine

/-- The next operation of the port and the state with its bytes taken away, or why they are turned away. -/
def fetch (s : State) : Except OpReject (Instr × State) :=
  match Sys2Proof.decode s.opQueue with
  | .ok (i, rest) => .ok (i, s.withQueue rest)
  | .error e => .error e

end Sys2Proof.Machine
end

