-- ==== Sys2Proof/Machine/Step.lean ====
section
/-! DEFINITION. One step of the machine. Inputs land between steps: `rst` first (`70_reset_and_hazards.md` R290), then
an operation waiting on the operation port (log entry 1), then `start` (`45_frame.md` R214), and with none of them the
block's own sequence (R215). -/

namespace Sys2Proof.Machine

/-- One step. -/
def step (s : State) : Host.Outcome State Fault Refusal :=
  if s.rst then .next s.applyReset
  else
    match s.opQueue with
    | _ :: _ =>
        match fetch s with
        | .ok (i, t) => exec i t
        | .error e => .refused (.operationRejected e)
    | [] => if s.start then exec .start s.takeStart else phaseStep s

/-- The state with a word waiting on the operation port, so that the next step runs the operation it stands for (log
entry 1). -/
def State.withFetchWord (s : State) (nbits w : Nat) : State :=
  { s with opQueue := wordBytes nbits w, rst := false }

end Sys2Proof.Machine
end

