-- ==== Sys2Proof/Safety.lean ====
section
/-! DEFINITION. What counts as a legal launch and a safe run, in the terms the statements use: the host's duties
(`70_reset_and_hazards.md` R292 to R304), the invariant of a running block, what a transaction presents, and which
parts of the state an operation leaves alone. -/

namespace Sys2Proof.Machine

/-- `k` steps of the machine (the host's own iteration), stopping at the first fault or refusal. -/
abbrev run (k : Nat) (s : State) : Result := Host.Core.run Sys2Proof.core k s

/-- No input is asserted and no operation waits: the block runs its own sequence. -/
def HostQuiet (s : State) : Prop := s.rst = false ∧ s.start = false ∧ s.opQueue = []

/-- R304: `frame_len` is the true length of the buffer, saturated. -/
def LaunchLengthTrue (s : State) : Prop := s.frameLen = saturatedLen s.frame.len

/-- The invariants of a committed result (`45_frame.md` R220) in a build whose `CLK_STR_MAXLEN` is `c`. The widths are
the types'. -/
def Packet.good (c : Config.StrMaxlen) (p : Packet) : Prop :=
  p.dataCount.toNat ≤ 180 ∧ p.entries.length = p.dataCount.toNat ∧
  (∀ (k : Nat) (h : k < p.entries.length), p.entries[k].index.toNat = k ∧
    p.entries[k].timestampAsicDisp.toNat = 4 * p.entries[k].timestampAsic.toNat) ∧
  p.clkStateStr = minbin (p.status.clkState.setWidth 32) c.val

/-- The header registers hold what the frame's header says (`42_header.md` R170). -/
def HeaderRead (s : State) : Prop :=
  s.regs.packetNo = some (s.frame.le 0 8 64) ∧
  s.regs.status24 = some (s.frame.le 13 3 24) ∧
  s.regs.clkState = some (statusOf (s.frame.le 13 3 24)).clkState ∧
  s.regs.i2cStatus = some (statusOf (s.frame.le 13 3 24)).i2cStatus ∧
  s.regs.adcClkSel = some (statusOf (s.frame.le 13 3 24)).adcClkSel ∧
  s.regs.asicEnableStatus = some (statusOf (s.frame.le 13 3 24)).asicEnableStatus ∧
  s.regs.clkStateStr = some (clkStateText s.clkStrMaxlen (statusOf (s.frame.le 13 3 24)).clkState)

/-- Slots below `n` hold the frame's entries; the others hold no value (`10_state.md` R27). -/
def EntriesRead (s : State) (n : Nat) : Prop :=
  ∀ (k : Nat) (h : k < Config.maxData), s.ent[k] =
    if k < n then EntrySlot.of (entryOf (s.frame.le (16 + 8 * k) 8 64) k) else EntrySlot.empty

/-- What holds in each phase of a transaction (`45_frame.md` R215). -/
def PhaseInv (s : State) : Prop :=
  match s.phase with
  | .idle => s.idx = none ∧ s.regs = Regs.empty ∧ EntriesRead s 0
  | .len => s.regs.len = some (saturatedLen s.frame.len) ∧ EntriesRead s 0
  | .hdr => s.frame.len = 1458 ∧ EntriesRead s 0
  | .cnt => s.frame.len = 1458 ∧ HeaderRead s ∧ EntriesRead s 0
  | .ent => s.frame.len = 1458 ∧ HeaderRead s ∧ s.regs.dataCount = some (countOf s.frame) ∧
      (countOf s.frame).toNat ≤ 180 ∧
      ∃ i : BitVec 8, s.idx = some i ∧ i.toNat ≤ (countOf s.frame).toNat ∧ EntriesRead s i.toNat
  | .done => ∀ p, s.result = some p → p.good s.clkStrMaxlen

/-- The invariant of a block whose host keeps its duties and whose operation port is unused: the frame in canonical
form, `start` asserted only where it is legal and with the true length, the flags as R28 and R30 tie them together,
code 3 never recorded, and each phase's own facts. -/
def Inv (s : State) : Prop :=
  s.frame.wf ∧ s.opQueue = [] ∧
  (s.start = true → s.startEnabled = true ∧ LaunchLengthTrue s) ∧
  (s.done = true ↔ s.phase = .done) ∧
  (s.resultValid = true ↔ s.done = true ∧ s.outcome = some .ok) ∧
  (s.resultValid = true ↔ s.result.isSome = true) ∧
  (s.outcome.isSome = true ↔ s.done = true) ∧
  s.outcome ≠ some .internalConsistency ∧
  PhaseInv s

/-- The steps a transaction takes after START (`45_frame.md` R216), by what `DECODE` makes of the buffer. -/
def stepsAfterStart : Except FrameError Packet → Nat
  | .error .notThisProtocol => 1
  | .error .malformedCount => 3
  | .error .internalConsistency => 0
  | .ok p => 4 + p.dataCount.toNat

/-- A state presents what `DECODE` answers (`45_frame.md` R216). -/
def Presents (t : State) : Except FrameError Packet → Prop
  | .ok p => t.outcome = some .ok ∧ t.result = some p ∧ t.resultValid = true
  | .error e => t.outcome = some e.outcome ∧ t.result = none ∧ t.resultValid = false

/-- Two 1458-byte buffers agree on what the result depends on (`45_frame.md` R212 (d)). -/
def SameFootprint (a b : Memory) : Prop :=
  (∀ k, k < 8 → a.byte k = b.byte k) ∧
  (a.byte 15).extractLsb' 0 5 = (b.byte 15).extractLsb' 0 5 ∧
  (a.byte 14).extractLsb' 0 4 = (b.byte 14).extractLsb' 0 4 ∧
  (a.byte 13).extractLsb' 0 6 = (b.byte 13).extractLsb' 0 6 ∧
  (a.byte 1456).extractLsb' 3 5 = (b.byte 1456).extractLsb' 3 5 ∧
  a.byte 1457 = b.byte 1457 ∧
  ((countOf a).toNat ≤ 180 → ∀ k, 16 ≤ k → k < 16 + 8 * (countOf a).toNat → a.byte k = b.byte k)

/-! What an operation leaves alone. -/

/-- Every byte of the buffer reads as before, and the buffer has the same length. -/
def FrameUntouched (s t : State) : Prop :=
  t.frame.len = s.frame.len ∧ ∀ a, t.frame.byte? a = s.frame.byte? a

/-- The input ports and the build's parameter are as before. -/
def PortsUntouched (s t : State) : Prop :=
  t.rst = s.rst ∧ t.start = s.start ∧ t.frameLen = s.frameLen ∧ t.opQueue = s.opQueue ∧
  t.clkStrMaxlen = s.clkStrMaxlen

/-- `done`, `r.outcome`, `result_valid` and the result are as before. -/
def FlagsUntouched (s t : State) : Prop :=
  t.done = s.done ∧ t.outcome = s.outcome ∧ t.resultValid = s.resultValid ∧ t.result = s.result

/-- The sequencer is as before. -/
def SequencerUntouched (s t : State) : Prop := t.phase = s.phase ∧ t.idx = s.idx

/-- The model's own fields are as before. -/
def OwnUntouched (s t : State) : Prop := t.returned = s.returned ∧ t.epoch = s.epoch

end Sys2Proof.Machine
end

