-- ==== Sys2Proof/Certificates/Slice0/Obligations.lean ====
section
/-! DEFINITION. The statements about the model, from the spec's numbered rules. Each docstring names the rule. A
statement says `exec i s = .next t` where the operation completes; `t` is then the whole next state, so it also says
what the operation leaves alone. -/

open Sys2Proof Sys2Proof.Machine

/-! ## The bit-field extractor -/

/-- `00_scope.md` R12, the two operators the extractor and the string transform rest on: `ctz` finds the lowest set bit
of a non-zero value and `bitlen` is one above the highest. -/
def Obligations.CtzAndBitlenFindTheOuterSetBits : Prop :=
  ∀ (w : Nat) (v : BitVec w), v ≠ 0 →
    ctz v < w ∧ v.getLsbD (ctz v) = true ∧ (∀ j, j < ctz v → v.getLsbD j = false) ∧
    0 < bitlen v ∧ bitlen v ≤ w ∧ v.getLsbD (bitlen v - 1) = true ∧ (∀ j, bitlen v ≤ j → v.getLsbD j = false)

/-- R120: the result of an extraction, at every width, with the rule's corner cases and its bound. -/
def Obligations.ExtractionMasksAndRightJustifies : Prop :=
  ∀ (w : Nat) (word mask : BitVec w),
    (mask = 0 → extract word mask = 0) ∧
    (mask ≠ 0 → extract word mask = (word &&& mask) >>> ctz mask ∧ ctz mask < w) ∧
    (extract word (BitVec.allOnes w) = word) ∧
    (extract (0 : BitVec w) mask = 0) ∧
    (mask ≠ 0 → (extract word mask).toNat < 2 ^ (bitlen mask - ctz mask))

/-- R121, R122, R123: the three extractor operations complete on every word, mask and state, hand back the extraction
at their width (in the model's own field `returned`, log entry 4) and change nothing else. That it runs in every phase
is the model's choice (log entry 11). -/
def Obligations.ExtractorOperationsHandBackTheExtraction : Prop :=
  ∀ s : State,
    (∀ word mask : BitVec 64, exec (.bfx64 word mask) s = .next { s with returned := some (.bfx64 (extract word mask)) }) ∧
    (∀ word mask : BitVec 32, exec (.bfx32 word mask) s = .next { s with returned := some (.bfx32 (extract word mask)) }) ∧
    (∀ word mask : BitVec 16, exec (.bfx16 word mask) s = .next { s with returned := some (.bfx16 (extract word mask)) })

/-- R124: an extraction does not depend on the width it is done at. -/
def Obligations.ExtractionIsWidthIndependent : Prop :=
  ∀ (w w' : Nat) (word mask : BitVec w), w ≤ w' →
    extract (word.setWidth w') (mask.setWidth w') = (extract word mask).setWidth w'

/-- R125: under a contiguous mask an extraction is the bit slice; and the rule's table, field by field. -/
def Obligations.ContiguousMaskExtractionIsTheSlice : Prop :=
  (∀ (w lo hi : Nat) (word mask : BitVec w), lo ≤ hi → hi < w →
    (∀ j, mask.getLsbD j = (decide (lo ≤ j) && decide (j ≤ hi))) →
      (extract word mask).toNat = word.toNat / 2 ^ lo % 2 ^ (hi - lo + 1) ∧
      (extract word mask).toNat < 2 ^ (hi - lo + 1)) ∧
  (∀ v : BitVec 24,
    statusField v clkStateMask = bits 20 16 v ∧ statusField v i2cStatusMask = bits 11 8 v ∧
    statusField v adcClkSelMask = bits 5 4 v ∧ statusField v asicEnableStatusMask = bits 3 0 v) ∧
  (∀ v : BitVec 16, (extract v dataCountMask).toNat = (bits 15 3 v).toNat) ∧
  (∀ v : BitVec 64,
    entryField v adcMask = bits 63 52 v ∧ entryField v timestampFpgaMask = bits 51 21 v ∧
    entryField v timestampAsicMask = bits 20 9 v ∧ entryField v channelIdMask = bits 8 4 v ∧
    entryField v asicIdMask = bits 3 2 v ∧ entryField v pileUpMask = bits 1 1 v ∧
    entryField v overflowMask = bits 0 0 v)

/-- R126: bit `i` of an extraction is bit `i + ctz` of the word where the mask has that bit, and zero where it has a
hole: the holes are kept, the selected bits are not packed. With the rule's example. -/
def Obligations.NonContiguousMaskKeepsItsHoles : Prop :=
  (∀ (w : Nat) (word mask : BitVec w) (i : Nat), mask ≠ 0 →
    (extract word mask).getLsbD i = (word.getLsbD (i + ctz mask) && mask.getLsbD (i + ctz mask))) ∧
  extract (0b10110110 : BitVec 8) 0b10100100 = 0b101001

/-- R127: no information inside the mask is lost. -/
def Obligations.ExtractionLosesNothingInsideTheMask : Prop :=
  ∀ (w : Nat) (word mask : BitVec w), mask ≠ 0 → extract word mask <<< ctz mask = word &&& mask

/-- R128: the seven fields determine the data word; the status fields do not determine `status24`, the count does not
determine `count_raw`. -/
def Obligations.SevenFieldsPartitionTheDataWord : Prop :=
  (∀ v : BitVec 64,
    v = (entryField v adcMask : BitVec 12).setWidth 64 <<< 52 |||
        (entryField v timestampFpgaMask : BitVec 31).setWidth 64 <<< 21 |||
        (entryField v timestampAsicMask : BitVec 12).setWidth 64 <<< 9 |||
        (entryField v channelIdMask : BitVec 5).setWidth 64 <<< 4 |||
        (entryField v asicIdMask : BitVec 2).setWidth 64 <<< 2 |||
        (entryField v pileUpMask : BitVec 1).setWidth 64 <<< 1 |||
        (entryField v overflowMask : BitVec 1).setWidth 64) ∧
  (∀ (v v' : BitVec 64) (i : Nat), entryOf v i = entryOf v' i → v = v') ∧
  (∃ a b : BitVec 24, a ≠ b ∧ statusOf a = statusOf b) ∧
  (∃ a b : BitVec 16, a ≠ b ∧ extract a dataCountMask = extract b dataCountMask)

/-- R88, R91: the mask literals. The status masks are pairwise disjoint with union `0x1F0F3F`; the entry masks are
pairwise disjoint and cover all 64 bits. -/
def Obligations.MaskLiteralsAreDisjointAndCover : Prop :=
  clkStateMask = 0x1F0000 ∧ i2cStatusMask = 0x000F00 ∧ adcClkSelMask = 0x000030 ∧ asicEnableStatusMask = 0x00000F ∧
  clkStateMask ||| i2cStatusMask ||| adcClkSelMask ||| asicEnableStatusMask = 0x1F0F3F ∧
  [clkStateMask, i2cStatusMask, adcClkSelMask, asicEnableStatusMask].Pairwise (fun a b => a &&& b = 0) ∧
  adcMask = 0xFFF0000000000000 ∧ timestampFpgaMask = 0x000FFFFFFFE00000 ∧ timestampAsicMask = 0x00000000001FFE00 ∧
  channelIdMask = 0x00000000000001F0 ∧ asicIdMask = 0x000000000000000C ∧ pileUpMask = 0x0000000000000002 ∧
  overflowMask = 0x0000000000000001 ∧
  adcMask ||| timestampFpgaMask ||| timestampAsicMask ||| channelIdMask ||| asicIdMask ||| pileUpMask ||| overflowMask =
    0xFFFFFFFFFFFFFFFF ∧
  [adcMask, timestampFpgaMask, timestampAsicMask, channelIdMask, asicIdMask, pileUpMask, overflowMask].Pairwise
    (fun a b => a &&& b = 0)

/-! ## The display transforms -/

/-- R141: identity completes on every value of every width, hands back the same value (in the model's own field
`returned`, log entry 4) and changes nothing else. That it runs in every phase is the model's choice (log entry 11),
and so is that it takes every width, also one no word of the port has (log entry 15). -/
def Obligations.IdentityHandsBackItsOperand : Prop :=
  ∀ (s : State) (width : Nat) (v : BitVec width),
    exec (.xfId width v) s = .next { s with returned := some (.identity width v) }

/-- R143: scale by four completes. On an explicit value it hands back `v * 4` (in `returned`, log entry 4); in its
register form it writes `ent[idx].timestamp_asic_disp` from `ent[idx].timestamp_asic` (R194). Nothing else changes.
The register form is DEDUCED from R194 and R27 (log entry 10); that it completes in every phase, and at an index from
data_count on too, is the model's choice (log entry 11). -/
def Obligations.ScaleByFourCompletes : Prop :=
  (∀ (s : State) (v : BitVec 12), ∃ d : BitVec 14, d.toNat = v.toNat * 4 ∧
    exec (.xfScale4 (.value v)) s = .next { s with returned := some (.scaled d) }) ∧
  (∀ (s : State) (i : BitVec 8) (h : i.toNat < Config.maxData) (v : BitVec 12), s.idx = some i →
    s.ent[i.toNat].timestampAsic = some v →
    ∃ d : BitVec 14, d.toNat = v.toNat * 4 ∧
      exec (.xfScale4 .entry) s =
        .next { s with ent := s.ent.set i.toNat { s.ent[i.toNat] with timestampAsicDisp := some d } })

/-- R144: the laws of scale by four. -/
def Obligations.ScaleByFourLaws : Prop :=
  ∀ v : BitVec 12,
    (scale4 v).toNat = v.toNat * 4 ∧ (scale4 v).toNat / 4 = v.toNat ∧ (scale4 v).toNat % 4 = 0 ∧
    (scale4 v).toNat ≤ 16380 ∧ (∀ n, n % 4 = 0 → n ≤ 16380 → ∃ u : BitVec 12, (scale4 u).toNat = n) ∧
    (∀ v' : BitVec 12, scale4 v = scale4 v' → v = v') ∧
    (∀ v' : BitVec 12, v.toNat < v'.toNat → (scale4 v).toNat < (scale4 v').toNat)

/-- R146: the laws (a) to (f) of the minimal binary string. -/
def Obligations.MinimalBinaryStringLaws : Prop :=
  ∀ (w : Nat) (v : BitVec w) (maxLen : Nat), 1 ≤ maxLen →
    let out := minbin v maxLen
    let n := bitsToPrint v
    let d := min n (maxLen - 1)
    out.length = min (n + 2) maxLen ∧
    out.getLast? = some charTerm ∧ charTerm ∉ out.dropLast ∧
    (∀ c ∈ out.take d, c = charZero ∨ c = charOne) ∧
    (v ≠ 0 → 1 ≤ d → out.head? = some charOne) ∧
    (n + 2 ≤ maxLen →
      out = out.take n ++ [charMarker, charTerm] ∧
      (out.take n).foldl (fun acc c => 2 * acc + (if c = charOne then 1 else 0)) 0 = v.toNat ∧
      (∀ v' : BitVec w, bitsToPrint v' + 2 ≤ maxLen → minbin v' maxLen = out → v' = v) ∧
      ∀ maxLen', n + 2 ≤ maxLen' → minbin v maxLen' = out)

/-- R145: what is written. The digits are the `d` most significant of the `n` bits needed, then the marker where
`n + 2 <= max_len`, then the terminator; at `max_len` 0 nothing. -/
def Obligations.MinimalBinaryStringWritesTheTopDigits : Prop :=
  ∀ (w : Nat) (v : BitVec w) (maxLen : Nat),
    (bitsToPrint v = if v = 0 then 1 else bitlen v) ∧
    (maxLen = 0 → minbin v maxLen = []) ∧
    (1 ≤ maxLen →
      (minbin v maxLen).length = min (bitsToPrint v + 2) maxLen ∧
      (∀ k, k < min (bitsToPrint v) (maxLen - 1) →
        (minbin v maxLen)[k]? = some (if v.getLsbD (bitsToPrint v - 1 - k) then charOne else charZero)) ∧
      (bitsToPrint v + 2 ≤ maxLen → (minbin v maxLen)[bitsToPrint v]? = some charMarker) ∧
      (minbin v maxLen).getLast? = some charTerm)

/-- R145, R147: `XF.MINBIN` completes in each of its forms: on a u32 or u64 with any `max_len` it hands the string
back (in `returned`, log entry 4), in its register form it writes `r.clk_state_str`; nothing else changes. The
register form is DEDUCED from R147 and R26 (log entry 10); that the operation completes in every phase is the model's
choice (log entry 11), and so are the free value read where r.clk_state holds none (log entry 2), the string as the
list of its written bytes (log entry 12) and the build's CLK_STR_MAXLEN as a field of State (log entry 8). -/
def Obligations.MinimalBinaryStringOperationCompletes : Prop :=
  ∀ s : State,
    (∀ (v : BitVec 32) (maxLen : Nat),
      exec (.xfMinbin (.u32 v maxLen)) s = .next { s with returned := some (.text (minbin v maxLen)) }) ∧
    (∀ (v : BitVec 64) (maxLen : Nat),
      exec (.xfMinbin (.u64 v maxLen)) s = .next { s with returned := some (.text (minbin v maxLen)) }) ∧
    exec (.xfMinbin .clkState) s =
      .next { s with regs := { s.regs with clkStateStr := some (minbin (s.clkStateValue.setWidth 32) s.clkStrMaxlen.val) } }

/-- R147, and R7 ("at least 7 for no truncation"): in every build whose `CLK_STR_MAXLEN` is at least 7, the default 8
among them, the rendering of `clk_state` is never truncated: its digits, the marker and the terminator, at most 7
bytes. In a build below 7 the rendering of 31 lacks its marker. The string as the list of its written bytes is log
entry 12's, the build's parameter as an argument log entry 8's. -/
def Obligations.ClkStateRenderingIsNeverTruncated : Prop :=
  (∀ c : Config.StrMaxlen, 7 ≤ c.val → ∀ v : BitVec 5, ∃ digits : List Byte,
    clkStateText c v = digits ++ [charMarker, charTerm] ∧ digits.length = bitsToPrint v ∧ digits.length ≤ 5 ∧
    digits.foldl (fun acc c => 2 * acc + (if c = charOne then 1 else 0)) 0 = v.toNat) ∧
  (∀ c : Config.StrMaxlen, c.val < 7 → charMarker ∉ clkStateText c 31) ∧
  State.reset.clkStrMaxlen.val = 8

/-! ## The frame -/

/-- R51: `MemRead(off, n)` is the little-endian sum of its bytes. -/
def Obligations.MemReadIsLittleEndian : Prop :=
  ∀ (m : Memory) (off n : Nat),
    m.readLE off n = ((List.range n).map fun k => (m.byte (off + k)).toNat * 2 ^ (8 * k)).sum ∧
    m.readLE off n < 2 ^ (8 * n)

/-- R52: the 3-byte read at offset 13 is the top three bytes of the status field read as one u64. -/
def Obligations.NarrowReadSeesTheTopOfTheWideOne : Prop :=
  ∀ m : Memory, m.readLE 13 3 = m.readLE 8 8 >>> 40

/-- R97: the equivalent container forms of the four status fields. -/
def Obligations.ContainerMasksGiveTheSameStatus : Prop :=
  ∀ m : Memory,
    (extract (m.le 8 8 64) 0x1F00000000000000).setWidth 5 = (statusOf (m.le 13 3 24)).clkState ∧
    (extract (m.le 8 8 64) 0x000F000000000000).setWidth 4 = (statusOf (m.le 13 3 24)).i2cStatus ∧
    (extract (m.le 8 8 64) 0x0000300000000000).setWidth 2 = (statusOf (m.le 13 3 24)).adcClkSel ∧
    (extract (m.le 8 8 64) 0x00000F0000000000).setWidth 4 = (statusOf (m.le 13 3 24)).asicEnableStatus

/-- The loads of R160, R162, R180 and R190: the four complete whenever their bytes are in the buffer, write their
register with the little-endian value of the bytes at their offset, and change nothing else. That they do so in every
state is the model's choice (log entry 11): the rules run a load only once `CHK.LEN` has passed (R53), and `LD.ENTRY`
only with `idx < r.data_count` (here at every index up to 255 whose 8 bytes are in the buffer). -/
def Obligations.LoadsReadTheirOffsets : Prop :=
  ∀ s : State,
    (8 ≤ s.frame.len → exec .ldPktno s =
      .next { s with regs := { s.regs with packetNo := some (BitVec.ofNat 64 (s.frame.readLE 0 8)) } }) ∧
    (16 ≤ s.frame.len → exec .ldStatus s =
      .next { s with regs := { s.regs with status24 := some (BitVec.ofNat 24 (s.frame.readLE 13 3)) } }) ∧
    (1458 ≤ s.frame.len → exec .ldCount s =
      .next { s with regs := { s.regs with countRaw := some (BitVec.ofNat 16 (s.frame.readLE 1456 2)) } }) ∧
    (∀ i : BitVec 8, s.idx = some i → 24 + 8 * i.toNat ≤ s.frame.len → exec .ldEntry s =
      .next { s with regs := { s.regs with word := some (BitVec.ofNat 64 (s.frame.readLE (16 + 8 * i.toNat) 8)) } })

/-- R57: the block performs no store. Whatever a step does, the frame afterwards is the frame before it; and no step
writes the build's parameter (R29: the constants are read-only). That the build's parameter stands in State at all is
the model's choice (log entry 8). -/
def Obligations.NoStepWritesTheFrame : Prop :=
  ∀ s t : State, step s = .next t →
    t.frame = s.frame ∧ t.frameLen = s.frameLen ∧ t.clkStrMaxlen = s.clkStrMaxlen

/-- The canonical form of the frame (the model's own, log entry 3): a presented buffer has it, reads byte for byte as
the sequence it holds, and no step loses it. -/
def Obligations.PresentedFrameIsCanonicalAndFaithful : Prop :=
  (∀ buf : List Byte, (Memory.ofBytes buf).wf ∧ (Memory.ofBytes buf).len = buf.length ∧
    ∀ a, (Memory.ofBytes buf).byte? a = buf[a]?) ∧
  (∀ s t : State, s.frame.wf → step s = .next t → t.frame.wf)

/-! ## The header -/

/-- R165 to R168: the four status extractions complete in every state, write their register with their bits of
`r.status24`, and change nothing else. That they run in every phase is the model's choice (log entry 11), and so is what
they read where `r.status24` holds no value, a free value (log entry 2). -/
def Obligations.StatusExtractionsTakeTheirBits : Prop :=
  ∀ s : State,
    exec .exClkState s = .next { s with regs := { s.regs with clkState := some (bits 20 16 s.status24Value) } } ∧
    exec .exI2cStatus s = .next { s with regs := { s.regs with i2cStatus := some (bits 11 8 s.status24Value) } } ∧
    exec .exAdcClkSel s = .next { s with regs := { s.regs with adcClkSel := some (bits 5 4 s.status24Value) } } ∧
    exec .exAsicEn s =
      .next { s with regs := { s.regs with asicEnableStatus := some (bits 3 0 s.status24Value) } } ∧
    (∀ v, s.regs.status24 = some v → s.status24Value = v)

/-- R170: `DEC.HDR` is its sequence of operations, in every state, whether or not `CHK.LEN` has passed (the model's
choice, log entry 11). XF.MINBIN's register form is log entry 10's. -/
def Obligations.HeaderDecodeIsItsSequence : Prop :=
  ∀ s : State, exec .decHdr s =
    andThen (exec .ldPktno s) fun s => andThen (exec .ldStatus s) fun s => andThen (exec .exClkState s) fun s =>
    andThen (exec .exI2cStatus s) fun s => andThen (exec .exAdcClkSel s) fun s => andThen (exec .exAsicEn s) fun s =>
    exec (.xfMinbin .clkState) s

/-- R171: the status as a function of three bytes: on a buffer that has the header, `DEC.HDR` completes, writes the
seven header registers and nothing else, and the four status fields are these numbers of bytes 13, 14 and 15. That it
does so in every state is the model's choice (log entry 11): R170's precondition is that `CHK.LEN` has passed. -/
def Obligations.HeaderDecodeGivesStatusOfThreeBytes : Prop :=
  ∀ s : State, 16 ≤ s.frame.len →
    ∃ st : Status,
      st.clkState.toNat = (s.frame.byte 15).toNat % 32 ∧
      st.i2cStatus.toNat = (s.frame.byte 14).toNat % 16 ∧
      st.adcClkSel.toNat = (s.frame.byte 13).toNat / 16 % 4 ∧
      st.asicEnableStatus.toNat = (s.frame.byte 13).toNat % 16 ∧
      exec .decHdr s = .next { s with
        regs := { s.regs with
          packetNo := some (BitVec.ofNat 64 (s.frame.readLE 0 8)),
          status24 := some (BitVec.ofNat 24 (s.frame.readLE 13 3)),
          clkState := some st.clkState, i2cStatus := some st.i2cStatus, adcClkSel := some st.adcClkSel,
          asicEnableStatus := some st.asicEnableStatus,
          clkStateStr := some (minbin (st.clkState.setWidth 32) s.clkStrMaxlen.val) } }

/-! ## The count -/

/-- R182: `EX.COUNT` completes in every state, writes `r.data_count` with `r.count_raw >> 3`, at most 8191, and changes
nothing else. That it runs in every phase is the model's choice (log entry 11), and so is what it reads where
`r.count_raw` holds no value, a free value (log entry 2). -/
def Obligations.CountExtractionShiftsByThree : Prop :=
  ∀ s : State,
    exec .exCount s = .next { s with regs := { s.regs with dataCount := some (s.countRawValue >>> 3) } } ∧
    (s.countRawValue >>> 3).toNat ≤ 8191 ∧
    (∀ raw, s.regs.countRaw = some raw → s.countRawValue = raw)

/-- R184: `CHK.COUNT` passes a count up to 180 (`idx <- 0`, `phase <- ENT`, nothing else) and raises `MalformedCount`
above it, which for the count of a raw word is exactly from `0x05A8` on. That it does so from every phase and not in CNT
alone (R186, R215) is the model's choice (log entry 11), and so is what it reads where `r.data_count` holds no value, a
free value (log entry 2). -/
def Obligations.CountCheckRejectsAbove180 : Prop :=
  (∀ s : State, s.dataCountValue.toNat ≤ 180 →
    exec .chkCount s = .next { s with idx := some 0, phase := .ent }) ∧
  (∀ s : State, 180 < s.dataCountValue.toNat →
    exec .chkCount s = .next { s with
      outcome := some .malformedCount, result := none, resultValid := false, done := true, phase := .done }) ∧
  (∀ raw : BitVec 16, 180 < (raw >>> 3).toNat ↔ 0x05A8 ≤ raw.toNat) ∧
  (∀ (s : State) (n : BitVec 16), s.regs.dataCount = some n → s.dataCountValue = n)

/-- R186: the count step as a function of two bytes: in phase CNT, on any buffer that has them, the step goes to ENT with
`data_count = frame[1457]*32 + frame[1456] div 8` where that is at most 180, and otherwise ends in `MalformedCount`
with the result withdrawn (R257). That it does so also on a buffer of another length, which no transaction brings to CNT,
is the model's choice (log entry 11). -/
def Obligations.CountStepIsAFunctionOfTwoBytes : Prop :=
  ∀ s : State, HostQuiet s → s.phase = .cnt → 1458 ≤ s.frame.len →
    ∃ (raw count : BitVec 16),
      count.toNat = (s.frame.byte 1457).toNat * 32 + (s.frame.byte 1456).toNat / 8 ∧
      (count.toNat ≤ 180 → step s = .next { s with
        regs := { s.regs with countRaw := some raw, dataCount := some count }, idx := some 0, phase := .ent }) ∧
      (180 < count.toNat → step s = .next { s with
        regs := { s.regs with countRaw := some raw, dataCount := some count },
        outcome := some .malformedCount, result := none, resultValid := false, done := true, phase := .done })

/-! ## The data entries -/

/-- R192 to R198: the seven entry extractions complete for every index below 180, write their field of `ent[idx]` with
their bits of `r.word` (`EX.TS_ASIC` also the display value, four times that), and change nothing else. That they do
so at an index from `r.data_count` on too is the model's choice (log entry 11). So is what they read where r.word
holds no value, a free value (log entry 2). -/
def Obligations.EntryExtractionsTakeTheirBits : Prop :=
  ∀ (s : State) (i : BitVec 8) (h : i.toNat < Config.maxData), s.idx = some i →
    let e := s.ent[i.toNat]
    let w := s.wordValue
    exec .exAdc s = .next { s with ent := s.ent.set i.toNat { e with adc := some (bits 63 52 w) } } ∧
    exec .exTsFpga s = .next { s with ent := s.ent.set i.toNat { e with timestampFpga := some (bits 51 21 w) } } ∧
    exec .exTsAsic s = .next { s with ent := s.ent.set i.toNat { e with
      timestampAsic := some (bits 20 9 w),
      timestampAsicDisp := some (BitVec.ofNat 14 ((bits 20 9 w).toNat * 4)) } } ∧
    exec .exChannelId s = .next { s with ent := s.ent.set i.toNat { e with channelId := some (bits 8 4 w) } } ∧
    exec .exAsicId s = .next { s with ent := s.ent.set i.toNat { e with asicId := some (bits 3 2 w) } } ∧
    exec .exPileUp s = .next { s with ent := s.ent.set i.toNat { e with pileUp := some (bits 1 1 w) } } ∧
    exec .exOverflow s = .next { s with ent := s.ent.set i.toNat { e with overflow := some (bits 0 0 w) } } ∧
    (∀ v, s.regs.word = some v → w = v)

/-- R200: `DEC.ENTRY` completes for every index below 180 whose slot is in the buffer: `r.word` is the slot's word,
`ent[idx]` holds all nine fields of its entry with the label `idx`, and nothing else changes. That it does so in every
state is the model's choice (log entry 11): R200 "requires idx < r.data_count". -/
def Obligations.EntryDecodeWritesTheWholeSlot : Prop :=
  ∀ (s : State) (i : BitVec 8), s.idx = some i → i.toNat < Config.maxData → 24 + 8 * i.toNat ≤ s.frame.len →
    ∃ (ent : Vector EntrySlot Config.maxData),
      (∀ (k : Nat) (h : k < Config.maxData), ent[k] =
        if k = i.toNat then EntrySlot.of (entryOf (BitVec.ofNat 64 (s.frame.readLE (16 + 8 * i.toNat) 8)) i.toNat)
        else s.ent[k]) ∧
      exec .decEntry s = .next { s with
        regs := { s.regs with word := some (BitVec.ofNat 64 (s.frame.readLE (16 + 8 * i.toNat) 8)) }, ent := ent }

/-- R201: an entry depends on its own eight bytes and its index only; at every index below 180, also from
`r.data_count` on (the model's choice, log entry 11). -/
def Obligations.EntryDependsOnItsOwnBytesOnly : Prop :=
  ∀ (s s' t t' : State) (i : BitVec 8) (h : i.toNat < Config.maxData), s.idx = some i → s'.idx = some i →
    (∀ k, k < 8 → s.frame.byte (16 + 8 * i.toNat + k) = s'.frame.byte (16 + 8 * i.toNat + k)) →
    exec .decEntry s = .next t → exec .decEntry s' = .next t' → t.ent[i.toNat] = t'.ent[i.toNat]

/-! ## The frame decoder -/

/-- R211: `CHK.LEN` passes 1458 and only 1458; every other length raises `NotThisProtocol`. That it does so from every
phase and not in LEN alone (R215) is the model's choice (log entry 11), and so is what it reads where `r.len` holds no
value, a free value (log entry 2). -/
def Obligations.LengthCheckAdmitsOnly1458 : Prop :=
  (∀ s : State, s.lenValue.toNat = 1458 → exec .chkLen s = .next { s with phase := .hdr }) ∧
  (∀ s : State, s.lenValue.toNat ≠ 1458 → exec .chkLen s = .next { s with
    outcome := some .notThisProtocol, result := none, resultValid := false, done := true, phase := .done }) ∧
  (∀ len : Nat, (saturatedLen len).toNat = 1458 ↔ len = 1458) ∧
  (∀ (s : State) (n : BitVec 16), s.regs.len = some n → s.lenValue = n)

/-- R214: `START` in IDLE or DONE latches the length and leaves everything else of the block without a value; while a
transaction runs it is given no step. That the operation does so whether or not the `start` port is asserted, and
leaves that port as it is, is the model's choice (log entry 11): R214 enables START when `start` is asserted. (`epoch` is
the model's own counter, log entry 2: nothing is said of it.) -/
def Obligations.StartBeginsATransaction : Prop :=
  (∀ s : State, s.phase = .idle ∨ s.phase = .done → ∃ n : Nat, exec .start s = .next { s with
    phase := .len, idx := none, regs := { Regs.empty with len := some s.frameLen },
    ent := Vector.replicate Config.maxData EntrySlot.empty, done := false, outcome := none, resultValid := false,
    result := none, epoch := n }) ∧
  (∀ s t : State, s.phase = .len ∨ s.phase = .hdr ∨ s.phase = .cnt ∨ s.phase = .ent → exec .start s ≠ .next t)

/-- R215: the step table. With no input asserted a step does the work of its phase's row and goes where the row says;
with `start` asserted (and no `rst`, and nothing on the operation port) it is START's step (nothing is said of what
becomes of the `start` port, log entry 6). That a step reads a free value where `idx` or `r.data_count` holds no value is
the model's choice (log entry 2). -/
def Obligations.StepsFollowThePhaseTable : Prop :=
  ∀ s : State,
    (HostQuiet s →
      (s.phase = .idle → ∀ t, step s = .next t → t = s) ∧
      (s.phase = .len → step s = exec .chkLen s) ∧
      (s.phase = .hdr → step s = andThen (exec .decHdr s) fun t => .next { t with phase := .cnt }) ∧
      (s.phase = .cnt → step s =
        andThen (exec .ldCount s) fun a => andThen (exec .exCount a) fun b => exec .chkCount b) ∧
      (s.phase = .ent → s.idxValue.toNat < s.dataCountValue.toNat → step s =
        andThen (exec .decEntry s) fun t => .next { t with idx := some (t.idxValue + 1) }) ∧
      (s.phase = .ent → s.idxValue.toNat = s.dataCountValue.toNat → s.dataCountValue.toNat ≤ 180 →
        ∃ p, step s = .next { s with
          result := some p, outcome := some .ok, resultValid := true, done := true, phase := .done }) ∧
      (s.phase = .done → ∀ t, step s = .next t → t = s)) ∧
    (s.rst = false → s.opQueue = [] → s.start = true → ∃ b, step s = exec .start { s with start := b })

/-- R219: the commit: the whole result appears at once, made of the header registers, the count and the first
`data_count` entries in index order, and is held by every later step with no input; and before the commit, in every
phase but DONE of a block that meets `Inv`, the host sees no part of it. That the commit also completes where a register
or an entry holds no value, with a free value in its place, is the model's choice (log entry 2). -/
def Obligations.CommitPresentsTheWholeResult : Prop :=
  (∀ s : State, Inv s → s.phase ≠ .done → s.result = none ∧ s.resultPort = none ∧ s.outcomePort = none) ∧
  ∀ s : State, HostQuiet s → s.phase = .ent → s.idxValue.toNat = s.dataCountValue.toNat →
    s.dataCountValue.toNat ≤ 180 →
    ∃ p : Packet,
      step s = .next { s with
        result := some p, outcome := some .ok, resultValid := true, done := true, phase := .done } ∧
      (∀ v, s.regs.packetNo = some v → p.packetNo = v) ∧
      (∀ v, s.regs.clkState = some v → p.status.clkState = v) ∧
      (∀ v, s.regs.i2cStatus = some v → p.status.i2cStatus = v) ∧
      (∀ v, s.regs.adcClkSel = some v → p.status.adcClkSel = v) ∧
      (∀ v, s.regs.asicEnableStatus = some v → p.status.asicEnableStatus = v) ∧
      (∀ v, s.regs.clkStateStr = some v → p.clkStateStr = v) ∧
      p.dataCount = s.dataCountValue ∧
      p.entries.length = p.dataCount.toNat ∧
      (∀ (k : Nat) (h : k < Config.maxData) (e : DataEntry),
        k < p.dataCount.toNat → s.ent[k] = EntrySlot.of e → p.entries[k]? = some e) ∧
      ∀ (n : Nat) (t : State),
        run n { s with result := some p, outcome := some .ok, resultValid := true, done := true, phase := .done } =
          .next t → t.result = some p ∧ t.outcome = some .ok ∧ t.resultValid = true ∧ t.done = true ∧ t.phase = .done

/-- R256: what taking an error does: the code, the withdrawn result, `result_valid`, `done`, `phase`; nothing else. The
codes are R250's. R256 raises `NotThisProtocol` and `MalformedCount`; that the model's `raise` also takes the never
raised third kind, code 3, is its own choice (log entry 13). -/
def Obligations.RaiseRecordsTheErrorAndNothingElse : Prop :=
  (∀ (s : State) (e : FrameError), s.raise e = { s with
    outcome := some e.outcome, result := none, resultValid := false, done := true, phase := .done }) ∧
  FrameError.notThisProtocol.outcome.code = 1 ∧ FrameError.malformedCount.outcome.code = 2 ∧
  FrameError.internalConsistency.outcome.code = 3 ∧ OutcomeKind.ok.code = 0

/-- R210: the operation `DECODE` (as an operation the model's choice, log entry 9) completes in IDLE and DONE on every
buffer whatever, ends the transaction, and presents exactly what the function of R210 answers; the frame, the ports
and the operation port are as before. It does not look at the start and frame_len ports (log entry 9). -/
def Obligations.DecodeOperationPresentsTheFunction : Prop :=
  ∀ s : State, s.phase = .idle ∨ s.phase = .done →
    ∃ t, exec .decode s = .next t ∧ t.phase = .done ∧ t.done = true ∧ Presents t (decodeFrame s.clkStrMaxlen s.frame) ∧
      t.frame = s.frame ∧ PortsUntouched s t ∧ t.returned = s.returned

/-- R216: the machine computes `DECODE`. Started on any buffer with its true length, from IDLE or DONE, it reaches
DONE in exactly 1, 3 or `4 + data_count` steps after START's, not before, and presents what `DECODE` answers. (That
START is one step and is not taken again in DONE rests on the model's choice that a `start` that was taken is no
longer asserted, log entry 6.) That no rst and no waiting operation comes between (log entries 1, 6) and that the host
leaves the buffer alone (log entry 18) are its premises. -/
def Obligations.MachineComputesDecode : Prop :=
  ∀ s : State, s.phase = .idle ∨ s.phase = .done → s.rst = false → s.opQueue = [] → s.start = true →
    s.frameLen = saturatedLen s.frame.len →
    let answer := decodeFrame s.clkStrMaxlen s.frame
    (∃ t, run (1 + stepsAfterStart answer) s = .next t ∧ t.phase = .done ∧ t.done = true ∧
      Presents t answer ∧ t.frame = s.frame) ∧
    (∀ k, k < stepsAfterStart answer → ∃ u, run (1 + k) s = .next u ∧ u.phase ≠ .done) ∧
    stepsAfterStart answer ≤ 184

/-- R212 (d): the footprint. Two 1458-byte buffers that agree on it decode alike: reserved bits and padding do not
reach the result. -/
def Obligations.ReservedBitsAndPaddingDoNotReachTheResult : Prop :=
  ∀ (c : Config.StrMaxlen) (a b : Memory), a.len = 1458 → b.len = 1458 → SameFootprint a b →
    decodeFrame c a = decodeFrame c b

/-- R212 (e): which buffers give which outcome. -/
def Obligations.OutcomesAreExactlyThree : Prop :=
  ∀ (c : Config.StrMaxlen) (m : Memory),
    (decodeFrame c m = .error .notThisProtocol ↔ m.len ≠ 1458) ∧
    (decodeFrame c m = .error .malformedCount ↔
      m.len = 1458 ∧ 180 < (m.byte 1457).toNat * 32 + (m.byte 1456).toNat / 8) ∧
    ((∃ p, decodeFrame c m = .ok p) ↔
      m.len = 1458 ∧ (m.byte 1457).toNat * 32 + (m.byte 1456).toNat / 8 ≤ 180) ∧
    decodeFrame c m ≠ .error .internalConsistency

/-- R220: the invariants of a committed result. -/
def Obligations.DecodedPacketsAreGood : Prop :=
  ∀ (c : Config.StrMaxlen) (m : Memory) (p : Packet), decodeFrame c m = .ok p →
    p.dataCount.toNat ≤ 180 ∧ p.entries.length = p.dataCount.toNat ∧
    (∀ (k : Nat) (h : k < p.entries.length), p.entries[k].index.toNat = k ∧
      p.entries[k].timestampAsicDisp.toNat = 4 * p.entries[k].timestampAsic.toNat) ∧
    p.clkStateStr = minbin (p.status.clkState.setWidth 32) c.val

/-- R20: no register written by one transaction is read by a later one. Whatever two blocks of one build have run
before, `DECODE` on the same buffer ends with the same outcome, result, registers and entries. That a transaction is
one operation, and what it leaves in the registers and entries, is the model's choice (log entry 9). -/
def Obligations.TransactionsAreIndependentOfThePast : Prop :=
  ∀ s s' t t' : State, s.frame = s'.frame → s.clkStrMaxlen = s'.clkStrMaxlen → exec .decode s = .next t → exec .decode s' = .next t' →
    t.outcome = t'.outcome ∧ t.result = t'.result ∧ t.resultValid = t'.resultValid ∧ t.done = t'.done ∧
    t.phase = t'.phase ∧ t.idx = t'.idx ∧ t.regs = t'.regs ∧ t.ent = t'.ent

/-- R222: the layout assertion. As an operation, the model's choice (log entry 13), it completes in every state and
changes nothing. A configuration passes the check exactly when the sum holds; one that breaks it, or whose
`CLK_STR_MAXLEN` is 0 (U8), is not legal; every build the model has is legal, with 180 slots and 1458 bytes. That the
build's CLK_STR_MAXLEN stands in State is log entry 8's. -/
def Obligations.LayoutAssertionHolds : Prop :=
  (∀ s : State, exec .assertLayout s = .next s) ∧
  (∀ p : Config.Params, layoutHolds p = true ↔ 8 + 8 + p.maxData * 8 + 2 = p.packetSize) ∧
  (∀ p : Config.Params, 8 + 8 + p.maxData * 8 + 2 ≠ p.packetSize → legalConfiguration p = false) ∧
  (∀ p : Config.Params, p.clkStrMaxlen = 0 → legalConfiguration p = false) ∧
  (∀ s : State, s.params.maxData = 180 ∧ s.params.packetSize = 1458 ∧ s.params.clkStrMaxlen = s.clkStrMaxlen.val ∧
    legalConfiguration s.params = true)

/-- R240: `SUMMARY` completes whenever there is a committed result, hands back the line (in the model's own field
`returned`, log entry 4) and changes nothing else; the numerals are decimal, without leading zeros. The numerals are
PRESUMED by the spec itself (GK3, log entry 16); that it runs in every phase is the model's choice (log entry 11). -/
def Obligations.SummaryIsTheDecimalLine : Prop :=
  (∀ (s : State) (p : Packet), s.result = some p → exec .summary s = .next { s with
    returned := some (.summary ("no: ".toList ++ dec p.packetNo ++ ", size: ".toList ++ dec p.dataCount)) }) ∧
  (∀ (w : Nat) (v : BitVec w), w ≤ 64 → ∃ ds : List Nat,
    dec v = ds.map (fun d => Char.ofNat (48 + d)) ∧ (∀ d ∈ ds, d < 10) ∧ 1 ≤ ds.length ∧ ds.length ≤ 20 ∧
    (ds.head? = some 0 → ds = [0]) ∧ ds.foldl (fun acc d => 10 * acc + d) 0 = v.toNat)

/-! ## Steps, reset, invariants -/

/-- The step runs the operation that waits on the operation port (the model's own, log entry 1): when no `rst` is
asserted and the port's bytes decode, the step is that operation on the state with its bytes taken away. Bytes that
are no operation are refused by name ("Nothing else is admitted", R8). That rst comes before the operation and the
operation before start is log entry 6's. -/
def Obligations.StepRunsTheDecodedOperation : Prop :=
  (∀ (s : State) (i : Instr) (rest : List Byte), s.rst = false → decode s.opQueue = .ok (i, rest) →
    step s = exec i { s with opQueue := rest }) ∧
  (∀ (s : State) (e : OpReject), s.rst = false → s.opQueue ≠ [] → decode s.opQueue = .error e →
    step s = .refused (.operationRejected e))

/-- Where the spec gives no step the model stops by name (the model's choice, log entry 7). A load whose bytes are not
all in the buffer (R53: "defined only when `off + n <= len(buffer)`") and a write of an entry slot above the 180
(R27), each by itself and in `DEC.HDR` or `DEC.ENTRY`; `START` and `DECODE` while a transaction runs (R302); phase ENT
with `idx` above the count, for which R215 has no row; a commit of more than 180 entries (R27); `SUMMARY` where there
is no `Packet` (R240). A step of another phase that runs one of these stops with it (StepsFollowThePhaseTable). That
an operation gets there in any phase is log entry 11's, XF.SCALE4's register form log entry 10's; where idx or
data_count holds no value a free value stands for it (log entry 2). -/
def Obligations.WhereTheSpecGivesNoStepTheModelStopsByName : Prop :=
  ∀ s : State,
    (s.frame.len < 8 → exec .ldPktno s = .fault (.offsetOutsideFrame 0 8) ∧
      exec .decHdr s = .fault (.offsetOutsideFrame 0 8)) ∧
    (s.frame.len < 16 → exec .ldStatus s = .fault (.offsetOutsideFrame 13 3)) ∧
    (8 ≤ s.frame.len → s.frame.len < 16 → exec .decHdr s = .fault (.offsetOutsideFrame 13 3)) ∧
    (s.frame.len < 1458 → exec .ldCount s = .fault (.offsetOutsideFrame 1456 2)) ∧
    (∀ i : BitVec 8, s.idx = some i → s.frame.len < 24 + 8 * i.toNat →
      exec .ldEntry s = .fault (.offsetOutsideFrame (16 + 8 * i.toNat) 8) ∧
      exec .decEntry s = .fault (.offsetOutsideFrame (16 + 8 * i.toNat) 8)) ∧
    (∀ i : BitVec 8, s.idx = some i → 180 ≤ i.toNat → 24 + 8 * i.toNat ≤ s.frame.len →
      exec .decEntry s = .fault (.noSuchSlot i.toNat)) ∧
    (∀ i : BitVec 8, s.idx = some i → 180 ≤ i.toNat →
      ∀ op ∈ ([.exAdc, .exTsFpga, .exTsAsic, .exChannelId, .exAsicId, .exPileUp, .exOverflow, .xfScale4 .entry] :
        List Instr), exec op s = .fault (.noSuchSlot i.toNat)) ∧
    (s.phase = .len ∨ s.phase = .hdr ∨ s.phase = .cnt ∨ s.phase = .ent →
      exec .start s = .fault .startWhileBusy ∧ exec .decode s = .fault .startWhileBusy) ∧
    (HostQuiet s → s.phase = .ent → s.dataCountValue.toNat < s.idxValue.toNat → step s = .fault .noEnabledStep) ∧
    (HostQuiet s → s.phase = .ent → s.idxValue.toNat = s.dataCountValue.toNat → 180 < s.dataCountValue.toNat →
      step s = .fault (.noSuchSlot (s.dataCountValue.toNat - 1))) ∧
    (s.result = none → exec .summary s = .fault .noPacket)

/-- R33: the values after reset; and R290: `rst` puts the block there in any state, also during a transaction, leaves
the frame and the constants as they are, and presents no outcome. That one step takes it, before a waiting operation
and before `start`, is the model's choice (log entry 6). -/
def Obligations.ResetLeavesNoValue : Prop :=
  (State.reset.phase = .idle ∧ State.reset.idx = none ∧ State.reset.done = false ∧ State.reset.resultValid = false ∧
    State.reset.outcome = none ∧ State.reset.regs = ⟨none, none, none, none, none, none, none, none, none, none, none⟩ ∧
    (∀ (k : Nat) (h : k < Config.maxData), State.reset.ent[k] = ⟨none, none, none, none, none, none, none, none, none⟩) ∧
    State.reset.result = none ∧ State.reset.outcomePort = none) ∧
  (∀ s : State, s.rst = true → ∃ t, step s = .next t ∧
    t.phase = State.reset.phase ∧ t.idx = State.reset.idx ∧ t.regs = State.reset.regs ∧ t.ent = State.reset.ent ∧
    t.done = State.reset.done ∧ t.outcome = State.reset.outcome ∧ t.resultValid = State.reset.resultValid ∧
    t.result = State.reset.result ∧ t.frame = s.frame ∧ t.clkStrMaxlen = s.clkStrMaxlen)

/-- R259: an outcome, error or success, is held in DONE until the next START or reset: any number of steps with no
input leaves the state as it is (that a waiting step is answered at all is the model's choice, log entry 14). -/
def Obligations.OutcomeIsHeldUntilTheNextStart : Prop :=
  ∀ (s : State) (k : Nat), HostQuiet s → s.phase = .done → run k s = .next s

/-- The invariant of a running block holds after reset. The input ports and the model's own fields at rest are log
entry 5's, the canonical frame log entry 3's. -/
def Obligations.ResetMeetsTheInvariant : Prop := Inv State.reset

/-- The invariant of a running block (R28, R30, R215, R220 as `Inv` gathers them) is kept by every step. Inv's empty
operation port is log entry 1's, its canonical frame log entry 3's; that inputs land between steps and a taken start
is no longer asserted is log entry 6's, that the host has no move during a transaction log entry 18's. -/
def Obligations.StepKeepsTheInvariant : Prop :=
  ∀ s t : State, Inv s → step s = .next t → Inv t

/-- The host's move keeps the invariant: presenting any buffer to a block that waits. The buffer with its true length
as the only launch is log entry 18's, the canonical frame log entry 3's. -/
def Obligations.PresentKeepsTheInvariant : Prop :=
  ∀ (s : State) (buf : List Byte), Inv s → s.phase = .idle ∨ s.phase = .done → Inv (s.present buf)

/-- R217: the machine cannot be stuck in LEN, HDR, CNT or ENT. In every state that meets the invariant a step answers a
next state: no fault, no refusal. (That a waiting step in IDLE or DONE is answered at all is the model's choice, log
entry 14.) -/
def Obligations.RunningBlockIsNeverStuck : Prop :=
  ∀ s : State, Inv s → ∃ t, step s = .next t

/-- R253: outcome code 3 is never the outcome of a transaction: no step records it. That the code has a constructor at
all is the model's choice (log entry 13); the operations a step may run by itself are those of the operation port (log
entries 1, 9, 11). -/
def Obligations.InternalConsistencyIsNeverRecorded : Prop :=
  ∀ s t : State, s.outcome ≠ some .internalConsistency → step s = .next t → t.outcome ≠ some .internalConsistency

/-! ## Frames -/

/-- The frame of the operations that write no state of the block (R120, R140: pure): nothing but the handed-back value
may change. That the handed-back value is a field of State (log entry 4) and that they run in every phase (log entry
11, for ASSERT.LAYOUT log entry 13) is the model's choice; the other forms of XF.SCALE4 and XF.MINBIN are those of log
entry 10. -/
def Obligations.PureOperationsFrame : Prop :=
  ∀ (s t : State) (i : Instr),
    (∃ w m, i = .bfx64 w m) ∨ (∃ w m, i = .bfx32 w m) ∨ (∃ w m, i = .bfx16 w m) ∨ (∃ w v, i = .xfId w v) ∨
      (∃ v, i = .xfScale4 (.value v)) ∨ (∃ v n, i = .xfMinbin (.u32 v n)) ∨ (∃ v n, i = .xfMinbin (.u64 v n)) ∨
      i = .assertLayout ∨ i = .summary →
    exec i s = .next t →
      SequencerUntouched s t ∧ t.regs = s.regs ∧ t.ent = s.ent ∧ FlagsUntouched s t ∧ PortsUntouched s t ∧
      t.epoch = s.epoch ∧ FrameUntouched s t

/-- The frame of the operations that write working registers (R160 to R170, R180, R182, R190, and `XF.MINBIN`'s
register form), in every state (log entry 11): each writes the registers its rule names and no other; the sequencer,
the entry file, the flags, the ports, the model's own fields (log entries 2 and 4) and every byte of the frame are as
before. Where a register they read holds no value, they read a free value (log entry 2); XF.MINBIN's register form is
log entry 10's. -/
def Obligations.RegisterOperationsFrame : Prop :=
  ∀ s t : State,
    (∀ i ∈ ([.ldPktno, .ldStatus, .exClkState, .exI2cStatus, .exAdcClkSel, .exAsicEn, .decHdr, .xfMinbin .clkState,
        .ldCount, .exCount, .ldEntry] : List Instr), exec i s = .next t →
      SequencerUntouched s t ∧ t.ent = s.ent ∧ FlagsUntouched s t ∧ PortsUntouched s t ∧ OwnUntouched s t ∧
      FrameUntouched s t) ∧
    (exec .ldPktno s = .next t → t.regs = { s.regs with packetNo := t.regs.packetNo }) ∧
    (exec .ldStatus s = .next t → t.regs = { s.regs with status24 := t.regs.status24 }) ∧
    (exec .exClkState s = .next t → t.regs = { s.regs with clkState := t.regs.clkState }) ∧
    (exec .exI2cStatus s = .next t → t.regs = { s.regs with i2cStatus := t.regs.i2cStatus }) ∧
    (exec .exAdcClkSel s = .next t → t.regs = { s.regs with adcClkSel := t.regs.adcClkSel }) ∧
    (exec .exAsicEn s = .next t → t.regs = { s.regs with asicEnableStatus := t.regs.asicEnableStatus }) ∧
    (exec (.xfMinbin .clkState) s = .next t → t.regs = { s.regs with clkStateStr := t.regs.clkStateStr }) ∧
    (exec .decHdr s = .next t → t.regs.len = s.regs.len ∧ t.regs.countRaw = s.regs.countRaw ∧
      t.regs.dataCount = s.regs.dataCount ∧ t.regs.word = s.regs.word) ∧
    (exec .ldCount s = .next t → t.regs = { s.regs with countRaw := t.regs.countRaw }) ∧
    (exec .exCount s = .next t → t.regs = { s.regs with dataCount := t.regs.dataCount }) ∧
    (exec .ldEntry s = .next t → t.regs = { s.regs with word := t.regs.word })

/-- The frame of the operations that write `ent[idx]` (R192 to R198, R200, and `XF.SCALE4`'s register form), at every
index below 180 (log entry 11): every other slot, every other field of the slot, the registers (but `r.word` for
`DEC.ENTRY`), the sequencer, the flags, the ports, the model's own fields (log entries 2 and 4) and every byte of the
frame are as before. Where r.word or the field they read holds no value, they read a free value (log entry 2);
XF.SCALE4's register form is log entry 10's. -/
def Obligations.EntryOperationsFrame : Prop :=
  ∀ (s t : State) (i : BitVec 8) (h : i.toNat < Config.maxData), s.idx = some i →
    (∀ op ∈ ([.exAdc, .exTsFpga, .exTsAsic, .exChannelId, .exAsicId, .exPileUp, .exOverflow, .xfScale4 .entry,
        .decEntry] : List Instr), exec op s = .next t →
      (∀ (k : Nat) (hk : k < Config.maxData), k ≠ i.toNat → t.ent[k] = s.ent[k]) ∧
      SequencerUntouched s t ∧ FlagsUntouched s t ∧ PortsUntouched s t ∧ OwnUntouched s t ∧ FrameUntouched s t ∧
      (op ≠ .decEntry → t.regs = s.regs) ∧ t.regs = { s.regs with word := t.regs.word }) ∧
    (exec .exAdc s = .next t → t.ent[i.toNat] = { s.ent[i.toNat] with adc := t.ent[i.toNat].adc }) ∧
    (exec .exTsFpga s = .next t →
      t.ent[i.toNat] = { s.ent[i.toNat] with timestampFpga := t.ent[i.toNat].timestampFpga }) ∧
    (exec .exTsAsic s = .next t → t.ent[i.toNat] = { s.ent[i.toNat] with
      timestampAsic := t.ent[i.toNat].timestampAsic, timestampAsicDisp := t.ent[i.toNat].timestampAsicDisp }) ∧
    (exec (.xfScale4 .entry) s = .next t →
      t.ent[i.toNat] = { s.ent[i.toNat] with timestampAsicDisp := t.ent[i.toNat].timestampAsicDisp }) ∧
    (exec .exChannelId s = .next t → t.ent[i.toNat] = { s.ent[i.toNat] with channelId := t.ent[i.toNat].channelId }) ∧
    (exec .exAsicId s = .next t → t.ent[i.toNat] = { s.ent[i.toNat] with asicId := t.ent[i.toNat].asicId }) ∧
    (exec .exPileUp s = .next t → t.ent[i.toNat] = { s.ent[i.toNat] with pileUp := t.ent[i.toNat].pileUp }) ∧
    (exec .exOverflow s = .next t → t.ent[i.toNat] = { s.ent[i.toNat] with overflow := t.ent[i.toNat].overflow })

/-- The frame of the gates, of `START` and of `DECODE`, as operations in every state (log entries 9 and 11): no
working register or entry changes in a check, and none of the control operations touches a port, the handed-back value
(log entry 4) or a byte of the frame. Where the register a check reads holds no value, it reads a free value (log
entry 2). -/
def Obligations.ControlOperationsFrame : Prop :=
  ∀ s t : State,
    (∀ i ∈ ([.chkLen, .chkCount] : List Instr), exec i s = .next t →
      t.regs = s.regs ∧ t.ent = s.ent ∧ t.epoch = s.epoch) ∧
    (∀ i ∈ ([.chkLen, .chkCount, .start, .decode] : List Instr), exec i s = .next t →
      PortsUntouched s t ∧ t.returned = s.returned ∧ FrameUntouched s t)

/-! ## The words of the operation port (the model's own, log entry 1) -/

/-- Decode and encode agree: decoding the words of any well-formed operation, whatever bytes follow, gives it back
with every operand. The words are the model's own (log entry 1), and so is which operands can be written (log entry
15). -/
def Obligations.DecodeOfEncodeIsTheOperation : Prop :=
  ∀ (i : Instr) (rest : List Byte), i.wellFormed = true → decode (encode i ++ rest) = .ok (i, rest)

/-- The other direction: whatever bytes decode are exactly the words of the operation they decode to, which is well
formed; no second spelling is admitted. The words are the model's own (log entry 1), and so is which operands can be
written (log entry 15). -/
def Obligations.DecodedBytesAreTheOperationsWords : Prop :=
  ∀ (bs rest : List Byte) (i : Instr), decode bs = .ok (i, rest) → i.wellFormed = true ∧ bs = encode i ++ rest

/-- A few words written out: the selector is the row number of R100's list, operands little-endian. The words are the
model's own (log entry 1). -/
def Obligations.SampleWordsDecode : Prop :=
  decode [1, 3, 0, 0, 0, 0, 0, 0, 0, 2, 0, 0, 0, 0, 0, 0, 0] = .ok (.bfx64 3 2, []) ∧
  decode [2, 0x3F, 0x0F, 0x1F, 0, 0, 0, 0x1F, 0] = .ok (.bfx32 0x001F0F3F 0x001F0000, []) ∧
  decode [3, 8, 0, 0xF8, 0xFF] = .ok (.bfx16 0x0008 0xFFF8, []) ∧
  decode [5, 0, 0x23, 0x01] = .ok (.xfScale4 (.value 0x123), []) ∧
  decode [6, 0, 0x16, 0, 0, 0, 8, 0, 0, 0, 0, 0, 0, 0] = .ok (.xfMinbin (.u32 0b10110 8), []) ∧
  decode [7] = .ok (.ldPktno, []) ∧ decode [13] = .ok (.decHdr, []) ∧ decode [16] = .ok (.chkCount, []) ∧
  decode [25] = .ok (.decEntry, []) ∧ decode [27] = .ok (.start, []) ∧ decode [30] = .ok (.summary, []) ∧
  decode [0] = .error (.noSuchOperation 0) ∧ decode [31] = .error (.noSuchOperation 31)
end

