-- ==== Sys2Proof/Laws/Memory.lean ====
section
/-! SUPPORT. The frame buffer: its canonical form and reading from it. The block has no store (`20_memory.md` R57), so
the operations on it are the host's presentation of a byte sequence and the reads. -/

namespace Sys2Proof.Machine

theorem cellsFrom_mem {bs : List Byte} {a : Nat} {c : Host.Cell} (h : c ∈ cellsFrom a bs) :
    a ≤ c.1 ∧ c.1 < a + bs.length ∧ c.2 ≠ Memory.unlisted := by
  induction bs generalizing a with
  | nil => simp [cellsFrom] at h
  | cons b bs ih =>
    unfold cellsFrom at h
    split at h
    · obtain ⟨h₁, h₂, h₃⟩ := ih h
      simp only [List.length_cons]
      exact ⟨by omega, by omega, h₃⟩
    · simp only [List.length_cons]
      rcases List.mem_cons.mp h with rfl | h
      · exact ⟨by simp, by simp, ‹_›⟩
      · obtain ⟨h₁, h₂, h₃⟩ := ih h
        exact ⟨by omega, by omega, h₃⟩

theorem cellsFrom_pairwise (bs : List Byte) (a : Nat) : (cellsFrom a bs).Pairwise fun x y => x.1 < y.1 := by
  induction bs generalizing a with
  | nil => exact List.Pairwise.nil
  | cons b bs ih =>
    unfold cellsFrom
    split
    · exact ih _
    · exact List.Pairwise.cons (fun c hc => by have := (cellsFrom_mem hc).1; simp only; omega) (ih _)

/-- A presented buffer is in canonical form. -/
theorem Memory.ofBytes_wf (buf : List Byte) : (Memory.ofBytes buf).wf :=
  ⟨cellsFrom_pairwise buf 0, fun c hc => by
    obtain ⟨-, h, h'⟩ := cellsFrom_mem hc
    exact ⟨by simpa [Memory.ofBytes] using h, h'⟩⟩

theorem cellsFrom_lookup (bs : List Byte) (a k : Nat) :
    ((cellsFrom a bs).lookup (a + k)).getD Memory.unlisted = bs[k]?.getD Memory.unlisted := by
  induction bs generalizing a k with
  | nil => simp [cellsFrom]
  | cons b bs ih =>
    have none_below : ∀ c ∈ cellsFrom (a + 1) bs, c.1 ≠ a := fun c hc => by
      have := (cellsFrom_mem hc).1; omega
    cases k with
    | zero =>
      unfold cellsFrom
      split
      · next hb =>
        have : (cellsFrom (a + 1) bs).lookup a = none := by
          rw [List.lookup_eq_none_iff]
          intro c hc
          have := none_below c hc
          simpa using fun h => this h.symm
        simp [this, hb]
      · simp
    | succ k =>
      have := ih (a + 1) k
      have e : a + (k + 1) = a + 1 + k := by omega
      unfold cellsFrom
      split
      · rw [e, this]; simp
      · rw [List.lookup_cons]
        have : (a + (k + 1) == a) = false := by simp
        simp only [this]
        rw [e, ih (a + 1) k]; simp

/-- A presented buffer reads, byte for byte, as the sequence it holds. -/
theorem Memory.byte_ofBytes (buf : List Byte) (a : Nat) :
    (Memory.ofBytes buf).byte a = buf[a]?.getD Memory.unlisted := by
  simpa [Memory.byte, Memory.ofBytes] using cellsFrom_lookup buf 0 a

@[simp] theorem Memory.len_ofBytes (buf : List Byte) : (Memory.ofBytes buf).len = buf.length := rfl

/-- The buffer of the reset state is in canonical form. -/
theorem State.reset_frame_wf : State.reset.frame.wf := by decide

@[simp] theorem Memory.readLE_zero (m : Memory) (off : Nat) : m.readLE off 0 = 0 := rfl

theorem Memory.readLE_succ (m : Memory) (off n : Nat) :
    m.readLE off (n + 1) = (m.byte off).toNat + 256 * m.readLE (off + 1) n := rfl

/-- A read depends on its own bytes only. -/
theorem Memory.readLE_congr {m m' : Memory} {off n : Nat} (h : ∀ k, k < n → m.byte (off + k) = m'.byte (off + k)) :
    m.readLE off n = m'.readLE off n := by
  induction n generalizing off with
  | zero => rfl
  | succ n ih =>
    rw [readLE_succ, readLE_succ, ← Nat.add_zero off, h 0 (by omega)]
    congr 2
    exact ih fun k hk => by have := h (k + 1) (by omega); rwa [Nat.add_comm k 1, ← Nat.add_assoc] at this

end Sys2Proof.Machine
end

