-- ==== Sys2Proof/Laws/State.lean ====
section
/-! SUPPORT. What each named update of the state does to each field: one lemma a field, true by definition. -/

namespace Sys2Proof.Machine

variable (s : State)

/-! `State.withPhase` -/

@[simp] theorem State.withPhase_phase (p : Phase) :
    (s.withPhase p).phase = p := rfl
@[simp] theorem State.withPhase_idx (p : Phase) :
    (s.withPhase p).idx = s.idx := rfl
@[simp] theorem State.withPhase_regs (p : Phase) :
    (s.withPhase p).regs = s.regs := rfl
@[simp] theorem State.withPhase_ent (p : Phase) :
    (s.withPhase p).ent = s.ent := rfl
@[simp] theorem State.withPhase_done (p : Phase) :
    (s.withPhase p).done = s.done := rfl
@[simp] theorem State.withPhase_outcome (p : Phase) :
    (s.withPhase p).outcome = s.outcome := rfl
@[simp] theorem State.withPhase_resultValid (p : Phase) :
    (s.withPhase p).resultValid = s.resultValid := rfl
@[simp] theorem State.withPhase_result (p : Phase) :
    (s.withPhase p).result = s.result := rfl
@[simp] theorem State.withPhase_rst (p : Phase) :
    (s.withPhase p).rst = s.rst := rfl
@[simp] theorem State.withPhase_start (p : Phase) :
    (s.withPhase p).start = s.start := rfl
@[simp] theorem State.withPhase_frameLen (p : Phase) :
    (s.withPhase p).frameLen = s.frameLen := rfl
@[simp] theorem State.withPhase_frame (p : Phase) :
    (s.withPhase p).frame = s.frame := rfl
@[simp] theorem State.withPhase_opQueue (p : Phase) :
    (s.withPhase p).opQueue = s.opQueue := rfl
@[simp] theorem State.withPhase_returned (p : Phase) :
    (s.withPhase p).returned = s.returned := rfl
@[simp] theorem State.withPhase_epoch (p : Phase) :
    (s.withPhase p).epoch = s.epoch := rfl
@[simp] theorem State.withPhase_clkStrMaxlen (p : Phase) :
    (s.withPhase p).clkStrMaxlen = s.clkStrMaxlen := rfl

/-! `State.withIdx` -/

@[simp] theorem State.withIdx_phase (i : BitVec 8) :
    (s.withIdx i).phase = s.phase := rfl
@[simp] theorem State.withIdx_idx (i : BitVec 8) :
    (s.withIdx i).idx = some i := rfl
@[simp] theorem State.withIdx_regs (i : BitVec 8) :
    (s.withIdx i).regs = s.regs := rfl
@[simp] theorem State.withIdx_ent (i : BitVec 8) :
    (s.withIdx i).ent = s.ent := rfl
@[simp] theorem State.withIdx_done (i : BitVec 8) :
    (s.withIdx i).done = s.done := rfl
@[simp] theorem State.withIdx_outcome (i : BitVec 8) :
    (s.withIdx i).outcome = s.outcome := rfl
@[simp] theorem State.withIdx_resultValid (i : BitVec 8) :
    (s.withIdx i).resultValid = s.resultValid := rfl
@[simp] theorem State.withIdx_result (i : BitVec 8) :
    (s.withIdx i).result = s.result := rfl
@[simp] theorem State.withIdx_rst (i : BitVec 8) :
    (s.withIdx i).rst = s.rst := rfl
@[simp] theorem State.withIdx_start (i : BitVec 8) :
    (s.withIdx i).start = s.start := rfl
@[simp] theorem State.withIdx_frameLen (i : BitVec 8) :
    (s.withIdx i).frameLen = s.frameLen := rfl
@[simp] theorem State.withIdx_frame (i : BitVec 8) :
    (s.withIdx i).frame = s.frame := rfl
@[simp] theorem State.withIdx_opQueue (i : BitVec 8) :
    (s.withIdx i).opQueue = s.opQueue := rfl
@[simp] theorem State.withIdx_returned (i : BitVec 8) :
    (s.withIdx i).returned = s.returned := rfl
@[simp] theorem State.withIdx_epoch (i : BitVec 8) :
    (s.withIdx i).epoch = s.epoch := rfl
@[simp] theorem State.withIdx_clkStrMaxlen (i : BitVec 8) :
    (s.withIdx i).clkStrMaxlen = s.clkStrMaxlen := rfl

/-! `State.withRegs` -/

@[simp] theorem State.withRegs_phase (r : Regs) :
    (s.withRegs r).phase = s.phase := rfl
@[simp] theorem State.withRegs_idx (r : Regs) :
    (s.withRegs r).idx = s.idx := rfl
@[simp] theorem State.withRegs_regs (r : Regs) :
    (s.withRegs r).regs = r := rfl
@[simp] theorem State.withRegs_ent (r : Regs) :
    (s.withRegs r).ent = s.ent := rfl
@[simp] theorem State.withRegs_done (r : Regs) :
    (s.withRegs r).done = s.done := rfl
@[simp] theorem State.withRegs_outcome (r : Regs) :
    (s.withRegs r).outcome = s.outcome := rfl
@[simp] theorem State.withRegs_resultValid (r : Regs) :
    (s.withRegs r).resultValid = s.resultValid := rfl
@[simp] theorem State.withRegs_result (r : Regs) :
    (s.withRegs r).result = s.result := rfl
@[simp] theorem State.withRegs_rst (r : Regs) :
    (s.withRegs r).rst = s.rst := rfl
@[simp] theorem State.withRegs_start (r : Regs) :
    (s.withRegs r).start = s.start := rfl
@[simp] theorem State.withRegs_frameLen (r : Regs) :
    (s.withRegs r).frameLen = s.frameLen := rfl
@[simp] theorem State.withRegs_frame (r : Regs) :
    (s.withRegs r).frame = s.frame := rfl
@[simp] theorem State.withRegs_opQueue (r : Regs) :
    (s.withRegs r).opQueue = s.opQueue := rfl
@[simp] theorem State.withRegs_returned (r : Regs) :
    (s.withRegs r).returned = s.returned := rfl
@[simp] theorem State.withRegs_epoch (r : Regs) :
    (s.withRegs r).epoch = s.epoch := rfl
@[simp] theorem State.withRegs_clkStrMaxlen (r : Regs) :
    (s.withRegs r).clkStrMaxlen = s.clkStrMaxlen := rfl

/-! `State.withSlot` -/

@[simp] theorem State.withSlot_phase (k : Fin Config.maxData) (e : EntrySlot) :
    (s.withSlot k e).phase = s.phase := rfl
@[simp] theorem State.withSlot_idx (k : Fin Config.maxData) (e : EntrySlot) :
    (s.withSlot k e).idx = s.idx := rfl
@[simp] theorem State.withSlot_regs (k : Fin Config.maxData) (e : EntrySlot) :
    (s.withSlot k e).regs = s.regs := rfl
@[simp] theorem State.withSlot_ent (k : Fin Config.maxData) (e : EntrySlot) :
    (s.withSlot k e).ent = s.ent.set k.val e k.isLt := rfl
@[simp] theorem State.withSlot_done (k : Fin Config.maxData) (e : EntrySlot) :
    (s.withSlot k e).done = s.done := rfl
@[simp] theorem State.withSlot_outcome (k : Fin Config.maxData) (e : EntrySlot) :
    (s.withSlot k e).outcome = s.outcome := rfl
@[simp] theorem State.withSlot_resultValid (k : Fin Config.maxData) (e : EntrySlot) :
    (s.withSlot k e).resultValid = s.resultValid := rfl
@[simp] theorem State.withSlot_result (k : Fin Config.maxData) (e : EntrySlot) :
    (s.withSlot k e).result = s.result := rfl
@[simp] theorem State.withSlot_rst (k : Fin Config.maxData) (e : EntrySlot) :
    (s.withSlot k e).rst = s.rst := rfl
@[simp] theorem State.withSlot_start (k : Fin Config.maxData) (e : EntrySlot) :
    (s.withSlot k e).start = s.start := rfl
@[simp] theorem State.withSlot_frameLen (k : Fin Config.maxData) (e : EntrySlot) :
    (s.withSlot k e).frameLen = s.frameLen := rfl
@[simp] theorem State.withSlot_frame (k : Fin Config.maxData) (e : EntrySlot) :
    (s.withSlot k e).frame = s.frame := rfl
@[simp] theorem State.withSlot_opQueue (k : Fin Config.maxData) (e : EntrySlot) :
    (s.withSlot k e).opQueue = s.opQueue := rfl
@[simp] theorem State.withSlot_returned (k : Fin Config.maxData) (e : EntrySlot) :
    (s.withSlot k e).returned = s.returned := rfl
@[simp] theorem State.withSlot_epoch (k : Fin Config.maxData) (e : EntrySlot) :
    (s.withSlot k e).epoch = s.epoch := rfl
@[simp] theorem State.withSlot_clkStrMaxlen (k : Fin Config.maxData) (e : EntrySlot) :
    (s.withSlot k e).clkStrMaxlen = s.clkStrMaxlen := rfl

/-! `State.withReturned` -/

@[simp] theorem State.withReturned_phase (v : Returned) :
    (s.withReturned v).phase = s.phase := rfl
@[simp] theorem State.withReturned_idx (v : Returned) :
    (s.withReturned v).idx = s.idx := rfl
@[simp] theorem State.withReturned_regs (v : Returned) :
    (s.withReturned v).regs = s.regs := rfl
@[simp] theorem State.withReturned_ent (v : Returned) :
    (s.withReturned v).ent = s.ent := rfl
@[simp] theorem State.withReturned_done (v : Returned) :
    (s.withReturned v).done = s.done := rfl
@[simp] theorem State.withReturned_outcome (v : Returned) :
    (s.withReturned v).outcome = s.outcome := rfl
@[simp] theorem State.withReturned_resultValid (v : Returned) :
    (s.withReturned v).resultValid = s.resultValid := rfl
@[simp] theorem State.withReturned_result (v : Returned) :
    (s.withReturned v).result = s.result := rfl
@[simp] theorem State.withReturned_rst (v : Returned) :
    (s.withReturned v).rst = s.rst := rfl
@[simp] theorem State.withReturned_start (v : Returned) :
    (s.withReturned v).start = s.start := rfl
@[simp] theorem State.withReturned_frameLen (v : Returned) :
    (s.withReturned v).frameLen = s.frameLen := rfl
@[simp] theorem State.withReturned_frame (v : Returned) :
    (s.withReturned v).frame = s.frame := rfl
@[simp] theorem State.withReturned_opQueue (v : Returned) :
    (s.withReturned v).opQueue = s.opQueue := rfl
@[simp] theorem State.withReturned_returned (v : Returned) :
    (s.withReturned v).returned = some v := rfl
@[simp] theorem State.withReturned_epoch (v : Returned) :
    (s.withReturned v).epoch = s.epoch := rfl
@[simp] theorem State.withReturned_clkStrMaxlen (v : Returned) :
    (s.withReturned v).clkStrMaxlen = s.clkStrMaxlen := rfl

/-! `State.withQueue` -/

@[simp] theorem State.withQueue_phase (rest : List Byte) :
    (s.withQueue rest).phase = s.phase := rfl
@[simp] theorem State.withQueue_idx (rest : List Byte) :
    (s.withQueue rest).idx = s.idx := rfl
@[simp] theorem State.withQueue_regs (rest : List Byte) :
    (s.withQueue rest).regs = s.regs := rfl
@[simp] theorem State.withQueue_ent (rest : List Byte) :
    (s.withQueue rest).ent = s.ent := rfl
@[simp] theorem State.withQueue_done (rest : List Byte) :
    (s.withQueue rest).done = s.done := rfl
@[simp] theorem State.withQueue_outcome (rest : List Byte) :
    (s.withQueue rest).outcome = s.outcome := rfl
@[simp] theorem State.withQueue_resultValid (rest : List Byte) :
    (s.withQueue rest).resultValid = s.resultValid := rfl
@[simp] theorem State.withQueue_result (rest : List Byte) :
    (s.withQueue rest).result = s.result := rfl
@[simp] theorem State.withQueue_rst (rest : List Byte) :
    (s.withQueue rest).rst = s.rst := rfl
@[simp] theorem State.withQueue_start (rest : List Byte) :
    (s.withQueue rest).start = s.start := rfl
@[simp] theorem State.withQueue_frameLen (rest : List Byte) :
    (s.withQueue rest).frameLen = s.frameLen := rfl
@[simp] theorem State.withQueue_frame (rest : List Byte) :
    (s.withQueue rest).frame = s.frame := rfl
@[simp] theorem State.withQueue_opQueue (rest : List Byte) :
    (s.withQueue rest).opQueue = rest := rfl
@[simp] theorem State.withQueue_returned (rest : List Byte) :
    (s.withQueue rest).returned = s.returned := rfl
@[simp] theorem State.withQueue_epoch (rest : List Byte) :
    (s.withQueue rest).epoch = s.epoch := rfl
@[simp] theorem State.withQueue_clkStrMaxlen (rest : List Byte) :
    (s.withQueue rest).clkStrMaxlen = s.clkStrMaxlen := rfl

/-! `State.takeStart` -/

@[simp] theorem State.takeStart_phase :
    (s.takeStart).phase = s.phase := rfl
@[simp] theorem State.takeStart_idx :
    (s.takeStart).idx = s.idx := rfl
@[simp] theorem State.takeStart_regs :
    (s.takeStart).regs = s.regs := rfl
@[simp] theorem State.takeStart_ent :
    (s.takeStart).ent = s.ent := rfl
@[simp] theorem State.takeStart_done :
    (s.takeStart).done = s.done := rfl
@[simp] theorem State.takeStart_outcome :
    (s.takeStart).outcome = s.outcome := rfl
@[simp] theorem State.takeStart_resultValid :
    (s.takeStart).resultValid = s.resultValid := rfl
@[simp] theorem State.takeStart_result :
    (s.takeStart).result = s.result := rfl
@[simp] theorem State.takeStart_rst :
    (s.takeStart).rst = s.rst := rfl
@[simp] theorem State.takeStart_start :
    (s.takeStart).start = false := rfl
@[simp] theorem State.takeStart_frameLen :
    (s.takeStart).frameLen = s.frameLen := rfl
@[simp] theorem State.takeStart_frame :
    (s.takeStart).frame = s.frame := rfl
@[simp] theorem State.takeStart_opQueue :
    (s.takeStart).opQueue = s.opQueue := rfl
@[simp] theorem State.takeStart_returned :
    (s.takeStart).returned = s.returned := rfl
@[simp] theorem State.takeStart_epoch :
    (s.takeStart).epoch = s.epoch := rfl
@[simp] theorem State.takeStart_clkStrMaxlen :
    (s.takeStart).clkStrMaxlen = s.clkStrMaxlen := rfl

/-! `State.endWith` -/

@[simp] theorem State.endWith_phase (o : OutcomeKind) (p : Option Packet) :
    (s.endWith o p).phase = .done := rfl
@[simp] theorem State.endWith_idx (o : OutcomeKind) (p : Option Packet) :
    (s.endWith o p).idx = s.idx := rfl
@[simp] theorem State.endWith_regs (o : OutcomeKind) (p : Option Packet) :
    (s.endWith o p).regs = s.regs := rfl
@[simp] theorem State.endWith_ent (o : OutcomeKind) (p : Option Packet) :
    (s.endWith o p).ent = s.ent := rfl
@[simp] theorem State.endWith_done (o : OutcomeKind) (p : Option Packet) :
    (s.endWith o p).done = true := rfl
@[simp] theorem State.endWith_outcome (o : OutcomeKind) (p : Option Packet) :
    (s.endWith o p).outcome = some o := rfl
@[simp] theorem State.endWith_resultValid (o : OutcomeKind) (p : Option Packet) :
    (s.endWith o p).resultValid = p.isSome := rfl
@[simp] theorem State.endWith_result (o : OutcomeKind) (p : Option Packet) :
    (s.endWith o p).result = p := rfl
@[simp] theorem State.endWith_rst (o : OutcomeKind) (p : Option Packet) :
    (s.endWith o p).rst = s.rst := rfl
@[simp] theorem State.endWith_start (o : OutcomeKind) (p : Option Packet) :
    (s.endWith o p).start = s.start := rfl
@[simp] theorem State.endWith_frameLen (o : OutcomeKind) (p : Option Packet) :
    (s.endWith o p).frameLen = s.frameLen := rfl
@[simp] theorem State.endWith_frame (o : OutcomeKind) (p : Option Packet) :
    (s.endWith o p).frame = s.frame := rfl
@[simp] theorem State.endWith_opQueue (o : OutcomeKind) (p : Option Packet) :
    (s.endWith o p).opQueue = s.opQueue := rfl
@[simp] theorem State.endWith_returned (o : OutcomeKind) (p : Option Packet) :
    (s.endWith o p).returned = s.returned := rfl
@[simp] theorem State.endWith_epoch (o : OutcomeKind) (p : Option Packet) :
    (s.endWith o p).epoch = s.epoch := rfl
@[simp] theorem State.endWith_clkStrMaxlen (o : OutcomeKind) (p : Option Packet) :
    (s.endWith o p).clkStrMaxlen = s.clkStrMaxlen := rfl

/-! `State.raise` -/

@[simp] theorem State.raise_phase (e : FrameError) :
    (s.raise e).phase = .done := rfl
@[simp] theorem State.raise_idx (e : FrameError) :
    (s.raise e).idx = s.idx := rfl
@[simp] theorem State.raise_regs (e : FrameError) :
    (s.raise e).regs = s.regs := rfl
@[simp] theorem State.raise_ent (e : FrameError) :
    (s.raise e).ent = s.ent := rfl
@[simp] theorem State.raise_done (e : FrameError) :
    (s.raise e).done = true := rfl
@[simp] theorem State.raise_outcome (e : FrameError) :
    (s.raise e).outcome = some e.outcome := rfl
@[simp] theorem State.raise_resultValid (e : FrameError) :
    (s.raise e).resultValid = false := rfl
@[simp] theorem State.raise_result (e : FrameError) :
    (s.raise e).result = none := rfl
@[simp] theorem State.raise_rst (e : FrameError) :
    (s.raise e).rst = s.rst := rfl
@[simp] theorem State.raise_start (e : FrameError) :
    (s.raise e).start = s.start := rfl
@[simp] theorem State.raise_frameLen (e : FrameError) :
    (s.raise e).frameLen = s.frameLen := rfl
@[simp] theorem State.raise_frame (e : FrameError) :
    (s.raise e).frame = s.frame := rfl
@[simp] theorem State.raise_opQueue (e : FrameError) :
    (s.raise e).opQueue = s.opQueue := rfl
@[simp] theorem State.raise_returned (e : FrameError) :
    (s.raise e).returned = s.returned := rfl
@[simp] theorem State.raise_epoch (e : FrameError) :
    (s.raise e).epoch = s.epoch := rfl
@[simp] theorem State.raise_clkStrMaxlen (e : FrameError) :
    (s.raise e).clkStrMaxlen = s.clkStrMaxlen := rfl

/-! `State.beginTransaction` -/

@[simp] theorem State.beginTransaction_phase (n : BitVec 16) :
    (s.beginTransaction n).phase = .len := rfl
@[simp] theorem State.beginTransaction_idx (n : BitVec 16) :
    (s.beginTransaction n).idx = none := rfl
@[simp] theorem State.beginTransaction_regs (n : BitVec 16) :
    (s.beginTransaction n).regs = { Regs.empty with len := some n } := rfl
@[simp] theorem State.beginTransaction_ent (n : BitVec 16) :
    (s.beginTransaction n).ent = Vector.replicate Config.maxData EntrySlot.empty := rfl
@[simp] theorem State.beginTransaction_done (n : BitVec 16) :
    (s.beginTransaction n).done = false := rfl
@[simp] theorem State.beginTransaction_outcome (n : BitVec 16) :
    (s.beginTransaction n).outcome = none := rfl
@[simp] theorem State.beginTransaction_resultValid (n : BitVec 16) :
    (s.beginTransaction n).resultValid = false := rfl
@[simp] theorem State.beginTransaction_result (n : BitVec 16) :
    (s.beginTransaction n).result = none := rfl
@[simp] theorem State.beginTransaction_rst (n : BitVec 16) :
    (s.beginTransaction n).rst = s.rst := rfl
@[simp] theorem State.beginTransaction_start (n : BitVec 16) :
    (s.beginTransaction n).start = s.start := rfl
@[simp] theorem State.beginTransaction_frameLen (n : BitVec 16) :
    (s.beginTransaction n).frameLen = s.frameLen := rfl
@[simp] theorem State.beginTransaction_frame (n : BitVec 16) :
    (s.beginTransaction n).frame = s.frame := rfl
@[simp] theorem State.beginTransaction_opQueue (n : BitVec 16) :
    (s.beginTransaction n).opQueue = s.opQueue := rfl
@[simp] theorem State.beginTransaction_returned (n : BitVec 16) :
    (s.beginTransaction n).returned = s.returned := rfl
@[simp] theorem State.beginTransaction_epoch (n : BitVec 16) :
    (s.beginTransaction n).epoch = s.epoch + 1 := rfl
@[simp] theorem State.beginTransaction_clkStrMaxlen (n : BitVec 16) :
    (s.beginTransaction n).clkStrMaxlen = s.clkStrMaxlen := rfl

/-! `State.applyReset` -/

@[simp] theorem State.applyReset_phase :
    (s.applyReset).phase = .idle := rfl
@[simp] theorem State.applyReset_idx :
    (s.applyReset).idx = none := rfl
@[simp] theorem State.applyReset_regs :
    (s.applyReset).regs = Regs.empty := rfl
@[simp] theorem State.applyReset_ent :
    (s.applyReset).ent = Vector.replicate Config.maxData EntrySlot.empty := rfl
@[simp] theorem State.applyReset_done :
    (s.applyReset).done = false := rfl
@[simp] theorem State.applyReset_outcome :
    (s.applyReset).outcome = none := rfl
@[simp] theorem State.applyReset_resultValid :
    (s.applyReset).resultValid = false := rfl
@[simp] theorem State.applyReset_result :
    (s.applyReset).result = none := rfl
@[simp] theorem State.applyReset_rst :
    (s.applyReset).rst = false := rfl
@[simp] theorem State.applyReset_start :
    (s.applyReset).start = s.start := rfl
@[simp] theorem State.applyReset_frameLen :
    (s.applyReset).frameLen = s.frameLen := rfl
@[simp] theorem State.applyReset_frame :
    (s.applyReset).frame = s.frame := rfl
@[simp] theorem State.applyReset_opQueue :
    (s.applyReset).opQueue = s.opQueue := rfl
@[simp] theorem State.applyReset_returned :
    (s.applyReset).returned = none := rfl
@[simp] theorem State.applyReset_epoch :
    (s.applyReset).epoch = s.epoch + 1 := rfl
@[simp] theorem State.applyReset_clkStrMaxlen :
    (s.applyReset).clkStrMaxlen = s.clkStrMaxlen := rfl

/-! `State.present` -/

@[simp] theorem State.present_phase (buf : List Byte) :
    (s.present buf).phase = s.phase := rfl
@[simp] theorem State.present_idx (buf : List Byte) :
    (s.present buf).idx = s.idx := rfl
@[simp] theorem State.present_regs (buf : List Byte) :
    (s.present buf).regs = s.regs := rfl
@[simp] theorem State.present_ent (buf : List Byte) :
    (s.present buf).ent = s.ent := rfl
@[simp] theorem State.present_done (buf : List Byte) :
    (s.present buf).done = s.done := rfl
@[simp] theorem State.present_outcome (buf : List Byte) :
    (s.present buf).outcome = s.outcome := rfl
@[simp] theorem State.present_resultValid (buf : List Byte) :
    (s.present buf).resultValid = s.resultValid := rfl
@[simp] theorem State.present_result (buf : List Byte) :
    (s.present buf).result = s.result := rfl
@[simp] theorem State.present_rst (buf : List Byte) :
    (s.present buf).rst = s.rst := rfl
@[simp] theorem State.present_start (buf : List Byte) :
    (s.present buf).start = true := rfl
@[simp] theorem State.present_frameLen (buf : List Byte) :
    (s.present buf).frameLen = saturatedLen buf.length := rfl
@[simp] theorem State.present_frame (buf : List Byte) :
    (s.present buf).frame = Memory.ofBytes buf := rfl
@[simp] theorem State.present_opQueue (buf : List Byte) :
    (s.present buf).opQueue = s.opQueue := rfl
@[simp] theorem State.present_returned (buf : List Byte) :
    (s.present buf).returned = s.returned := rfl
@[simp] theorem State.present_epoch (buf : List Byte) :
    (s.present buf).epoch = s.epoch := rfl
@[simp] theorem State.present_clkStrMaxlen (buf : List Byte) :
    (s.present buf).clkStrMaxlen = s.clkStrMaxlen := rfl

end Sys2Proof.Machine
end

