-- ==== Sys2Proof/Laws/Ops.lean ====
section
/-! SUPPORT. What each shared operation can do, said once. -/

namespace Sys2Proof.Machine

/-! ### Sequencing -/

@[simp] theorem andThen_next (s : State) (k : State → Result) : andThen (.next s) k = k s := rfl

@[simp] theorem andThen_fault (f : Fault) (k : State → Result) : andThen (.fault f) k = .fault f := rfl

@[simp] theorem andThen_refused (r : Refusal) (k : State → Result) : andThen (.refused r) k = .refused r := rfl

/-- A sequence answers a next state only through a next state of its first part. -/
theorem andThen_eq_next {r : Result} {k : State → Result} {t : State} (h : andThen r k = .next t) :
    ∃ s, r = .next s ∧ k s = .next t := by
  cases r with
  | next s => exact ⟨s, rfl, h⟩
  | fault f => simp at h
  | refused x => simp at h

/-! ### Loads -/

/-- A load inside the buffer goes on with the little-endian value. -/
theorem load_of_le {s : State} {off n w : Nat} {k : BitVec w → Result} (h : off + n ≤ s.frame.len) :
    load s off n w k = k (BitVec.ofNat w (s.frame.readLE off n)) := if_pos h

/-- A load outside the buffer stops. -/
theorem load_of_gt {s : State} {off n w : Nat} {k : BitVec w → Result} (h : s.frame.len < off + n) :
    load s off n w k = .fault (.offsetOutsideFrame off n) := if_neg (Nat.not_le.mpr h)

/-- A load that answers a next state was inside the buffer. -/
theorem load_eq_next {s t : State} {off n w : Nat} {k : BitVec w → Result} (h : load s off n w k = .next t) :
    off + n ≤ s.frame.len ∧ k (BitVec.ofNat w (s.frame.readLE off n)) = .next t := by
  unfold load at h
  split at h
  · exact ⟨‹_›, h⟩
  · cases h

/-! ### Entry slots -/

/-- A write of a slot that exists completes. -/
theorem writeSlot_of_lt {s : State} {k : Nat} {f : EntrySlot → EntrySlot} (h : k < Config.maxData) :
    writeSlot s k f = .next (s.withSlot ⟨k, h⟩ (f s.ent[k])) := dif_pos h

/-- A write of a slot that does not exist stops. -/
theorem writeSlot_of_ge {s : State} {k : Nat} {f : EntrySlot → EntrySlot} (h : Config.maxData ≤ k) :
    writeSlot s k f = .fault (.noSuchSlot k) := dif_neg (Nat.not_lt.mpr h)

/-- A slot write that answers a next state wrote exactly that slot. -/
theorem writeSlot_eq_next {s t : State} {k : Nat} {f : EntrySlot → EntrySlot} (h : writeSlot s k f = .next t) :
    ∃ hk : k < Config.maxData, t = s.withSlot ⟨k, hk⟩ (f s.ent[k]) := by
  unfold writeSlot at h
  split at h
  · cases h; exact ⟨‹_›, rfl⟩
  · cases h

/-- A second write of the same slot replaces the first: what lets a chain of field writes be read as one write. -/
theorem writeSlot_withSlot (s : State) (k : Fin Config.maxData) (e : EntrySlot) (f : EntrySlot → EntrySlot) :
    writeSlot (s.withSlot k e) k.val f = .next (s.withSlot k (f e)) := by
  rw [writeSlot_of_lt k.isLt]
  simp [State.withSlot]

/-- The slot just written. -/
@[simp] theorem withSlot_ent_self (s : State) (k : Fin Config.maxData) (e : EntrySlot) :
    (s.withSlot k e).ent[k.val] = e := by simp

/-- Every other slot is as before. -/
theorem withSlot_ent_of_ne (s : State) (k : Fin Config.maxData) (e : EntrySlot) {j : Nat} (hj : j < Config.maxData)
    (h : j ≠ k.val) : (s.withSlot k e).ent[j] = s.ent[j] := by
  simp only [State.withSlot_ent]
  exact Vector.getElem_set_ne k.isLt hj (Ne.symm h)

/-! ### Commit -/

/-- A commit of at most 180 entries completes with the assembled packet. -/
theorem commit_of_le {s : State} (h : s.dataCountValue.toNat ≤ Config.maxData) :
    commit s = .next (s.endWith .ok (some (s.assembled s.dataCountValue.toNat h))) := dif_pos h

/-- A commit that answers a next state presents the assembled packet. -/
theorem commit_eq_next {s t : State} (h : commit s = .next t) :
    ∃ hc : s.dataCountValue.toNat ≤ Config.maxData,
      t = s.endWith .ok (some (s.assembled s.dataCountValue.toNat hc)) := by
  unfold commit at h
  split at h
  · cases h; exact ⟨‹_›, rfl⟩
  · cases h

/-! ### Reading a register -/

/-- The index register's value, once it holds one. -/
theorem idxValue_of_some {s : State} {i : BitVec 8} (h : s.idx = some i) : s.idxValue = i := by
  simp [State.idxValue, h, valueOr]

@[simp] theorem valueOr_some {w : Nat} (v : BitVec w) (epoch : Nat) (p : Config.Place) :
    valueOr (some v) epoch p = v := rfl

/-- A slot that holds an entry whole reads as that entry. -/
@[simp] theorem EntrySlot.read_of (d : DataEntry) (epoch k : Nat) : (EntrySlot.of d).read epoch k = d := rfl

/-- START's enabling phases. -/
theorem startEnabled_iff (s : State) : s.startEnabled = true ↔ s.phase = .idle ∨ s.phase = .done := by
  simp [State.startEnabled]

end Sys2Proof.Machine
end

