-- ==== Sys2Proof/Laws/PerInstr.lean ====
section
/-! SUPPORT. A statement made for every operation, one lemma per constructor: the words of an operation begin with its
own selector, which is a row number of R100's list, and are never longer than the longest operation. -/

namespace Sys2Proof.Laws

@[simp] theorem leBytes_length (n v : Nat) : (leBytes n v).length = n := by
  induction n generalizing v with
  | zero => rfl
  | succ n ih => simp [leBytes, ih]

/-- The words of `i` begin with the byte of its selector, a row number from 1 to 30, and fit the longest operation. -/
def Words.Statement (i : Instr) : Prop :=
  (encode i).head? = some (BitVec.ofNat 8 (selector i)) ∧ 1 ≤ selector i ∧ selector i ≤ 30 ∧
    (encode i).length ≤ longestOperation

theorem Words.bfx64 (word mask : BitVec 64) : Words.Statement (.bfx64 word mask) := by
  simp [Words.Statement, encode, selector, operandBytes, longestOperation]

theorem Words.bfx32 (word mask : BitVec 32) : Words.Statement (.bfx32 word mask) := by
  simp [Words.Statement, encode, selector, operandBytes, longestOperation]

theorem Words.bfx16 (word mask : BitVec 16) : Words.Statement (.bfx16 word mask) := by
  simp [Words.Statement, encode, selector, operandBytes, longestOperation]

theorem Words.xfId (width : Nat) (v : BitVec width) : Words.Statement (.xfId width v) := by
  simp [Words.Statement, encode, selector, operandBytes, longestOperation]

theorem Words.xfScale4 (arg : Scale4Arg) : Words.Statement (.xfScale4 arg) := by
  cases arg <;> simp [Words.Statement, encode, selector, operandBytes, longestOperation]

theorem Words.xfMinbin (arg : MinbinArg) : Words.Statement (.xfMinbin arg) := by
  cases arg <;> simp [Words.Statement, encode, selector, operandBytes, longestOperation]

theorem Words.ldPktno : Words.Statement .ldPktno := by
  simp [Words.Statement, encode, selector, operandBytes, longestOperation]

theorem Words.ldStatus : Words.Statement .ldStatus := by
  simp [Words.Statement, encode, selector, operandBytes, longestOperation]

theorem Words.exClkState : Words.Statement .exClkState := by
  simp [Words.Statement, encode, selector, operandBytes, longestOperation]

theorem Words.exI2cStatus : Words.Statement .exI2cStatus := by
  simp [Words.Statement, encode, selector, operandBytes, longestOperation]

theorem Words.exAdcClkSel : Words.Statement .exAdcClkSel := by
  simp [Words.Statement, encode, selector, operandBytes, longestOperation]

theorem Words.exAsicEn : Words.Statement .exAsicEn := by
  simp [Words.Statement, encode, selector, operandBytes, longestOperation]

theorem Words.decHdr : Words.Statement .decHdr := by
  simp [Words.Statement, encode, selector, operandBytes, longestOperation]

theorem Words.ldCount : Words.Statement .ldCount := by
  simp [Words.Statement, encode, selector, operandBytes, longestOperation]

theorem Words.exCount : Words.Statement .exCount := by
  simp [Words.Statement, encode, selector, operandBytes, longestOperation]

theorem Words.chkCount : Words.Statement .chkCount := by
  simp [Words.Statement, encode, selector, operandBytes, longestOperation]

theorem Words.ldEntry : Words.Statement .ldEntry := by
  simp [Words.Statement, encode, selector, operandBytes, longestOperation]

theorem Words.exAdc : Words.Statement .exAdc := by
  simp [Words.Statement, encode, selector, operandBytes, longestOperation]

theorem Words.exTsFpga : Words.Statement .exTsFpga := by
  simp [Words.Statement, encode, selector, operandBytes, longestOperation]

theorem Words.exTsAsic : Words.Statement .exTsAsic := by
  simp [Words.Statement, encode, selector, operandBytes, longestOperation]

theorem Words.exChannelId : Words.Statement .exChannelId := by
  simp [Words.Statement, encode, selector, operandBytes, longestOperation]

theorem Words.exAsicId : Words.Statement .exAsicId := by
  simp [Words.Statement, encode, selector, operandBytes, longestOperation]

theorem Words.exPileUp : Words.Statement .exPileUp := by
  simp [Words.Statement, encode, selector, operandBytes, longestOperation]

theorem Words.exOverflow : Words.Statement .exOverflow := by
  simp [Words.Statement, encode, selector, operandBytes, longestOperation]

theorem Words.decEntry : Words.Statement .decEntry := by
  simp [Words.Statement, encode, selector, operandBytes, longestOperation]

theorem Words.chkLen : Words.Statement .chkLen := by
  simp [Words.Statement, encode, selector, operandBytes, longestOperation]

theorem Words.start : Words.Statement .start := by
  simp [Words.Statement, encode, selector, operandBytes, longestOperation]

theorem Words.decode : Words.Statement .decode := by
  simp [Words.Statement, encode, selector, operandBytes, longestOperation]

theorem Words.assertLayout : Words.Statement .assertLayout := by
  simp [Words.Statement, encode, selector, operandBytes, longestOperation]

theorem Words.summary : Words.Statement .summary := by
  simp [Words.Statement, encode, selector, operandBytes, longestOperation]

end Sys2Proof.Laws
end

