-- ==== Sys2Proof/Laws/Step.lean ====
section
/-! SUPPORT. One step, and several. -/

namespace Sys2Proof.Machine

/-- The layout sum of every build the model has. -/
@[simp] theorem layoutHolds_params (s : State) : layoutHolds s.params = true := by
  simp [layoutHolds, State.params, Config.params, Config.maxData, Config.packetSize]

/-- With no input asserted a step is the block's own sequence. -/
theorem step_of_quiet {s : State} (h : HostQuiet s) : step s = phaseStep s := by
  obtain ⟨hr, hs, hq⟩ := h
  simp [step, hr, hs, hq]

/-- `rst` comes before everything else. -/
theorem step_of_rst {s : State} (h : s.rst = true) : step s = .next s.applyReset := by
  simp [step, h]

/-- `start` is taken where no `rst` is asserted and no operation waits. -/
theorem step_of_start {s : State} (hr : s.rst = false) (hq : s.opQueue = []) (hs : s.start = true) :
    step s = exec .start s.takeStart := by
  simp [step, hr, hq, hs]

/-- Where the step's next state comes from: `rst`, an operation of the port, `start`, or the block's own sequence. -/
theorem step_cases {s t : State} (h : step s = .next t) :
    (s.rst = true ∧ t = s.applyReset) ∨
    (s.rst = false ∧ ∃ i rest, decode s.opQueue = .ok (i, rest) ∧ exec i (s.withQueue rest) = .next t) ∨
    (s.rst = false ∧ s.opQueue = [] ∧ s.start = true ∧ exec .start s.takeStart = .next t) ∨
    (HostQuiet s ∧ phaseStep s = .next t) := by
  unfold step at h
  split at h
  · next hr => cases h; exact .inl ⟨hr, rfl⟩
  · next hr =>
    have hr : s.rst = false := by simpa using hr
    split at h
    · next hq =>
      unfold fetch at h
      cases hd : decode s.opQueue with
      | error e => simp [hd] at h
      | ok p => exact .inr (.inl ⟨hr, p.1, p.2, by simp, by simpa [hd] using h⟩)
    · next hq =>
      split at h
      · next hs => exact .inr (.inr (.inl ⟨hr, hq, hs, h⟩))
      · next hs => exact .inr (.inr (.inr ⟨⟨hr, by simpa using hs, hq⟩, h⟩))

/-- No step at all. -/
@[simp] theorem run_zero (s : State) : run 0 s = .next s := rfl

/-- One step, then the others. -/
theorem run_succ (k : Nat) (s : State) : run (k + 1) s = andThen (step s) (run k) := by
  show Host.Core.run Sys2Proof.core (k + 1) s = _
  simp only [Host.Core.run]
  have e : Sys2Proof.core.step s = step s := rfl
  cases h : step s <;> rw [h] at e <;> rw [e] <;> rfl

end Sys2Proof.Machine
end

