-- ==== Sys2Proof/Tests/Slice0.lean ====
section
/-! SUPPORT. The model's own tests. Expected values are the spec's: `95_test_vectors.md` (V, T and P numbers below) or
the worked examples of the rules. Names: `test_` an effect on fixed values, `smoke_` an ill-formed term refused,
`word_` a word written out, `witness_` a state and operands that meet a statement's hypotheses together. -/

namespace Sys2Proof.Machine.Tests

/-! ## Helpers -/

/-- The next state of a result, if it is one. -/
def nextOf : Result → Option State
  | .next s => some s
  | .fault _ => none
  | .refused _ => none

/-- The reset state with a buffer presented, given sparsely as the vectors give frames. -/
def on (len : Nat) (cells : List Host.Cell) : State := { State.reset with frame := { len := len, cells := cells } }

/-- The reset state with a value in `r.status24`. -/
def withStatus (v : BitVec 24) : State := { State.reset with regs := { Regs.empty with status24 := some v } }

/-- The reset state with `idx` and a data word in `r.word`. -/
def withWord (i : BitVec 8) (v : BitVec 64) : State :=
  { State.reset with idx := some i, regs := { Regs.empty with word := some v } }

/-- The reset state in phase CNT, with a 1458-byte buffer that ends in two given bytes. -/
def beforeCount (lo hi : Byte) : State :=
  { State.reset with phase := .cnt, frame := { len := 1458, cells := [(1456, lo), (1457, hi)] } }

/-- The reset state with a count and, in phase ENT, an index. -/
def counted (p : Phase) (i : BitVec 8) (n : BitVec 16) : State :=
  { State.reset with phase := p, idx := some i, regs := { Regs.empty with dataCount := some n } }

/-- The reset state in a given phase. -/
def atPhase (p : Phase) : State := { State.reset with phase := p }

/-- A state in the build whose `CLK_STR_MAXLEN` is `c`. -/
def inBuild (c : Config.StrMaxlen) (s : State) : State := { s with clkStrMaxlen := c }

/-- The frame of P0, the source's end-to-end example (V8). -/
def frameP0 : List Host.Cell := [(0, 0x2A), (13, 0x0A), (16, 3), (1456, 8)]

/-- The packet of V8. -/
def packetV8 : Packet := ⟨42, ⟨0, 0, 0, 10⟩, [0x30, 0x62, 0], [⟨0, 0, 0, 0, 0, 0, 1, 1, 0⟩], 1⟩

/-- The data word of the running example at slot `i` (P4: `9B 6A 5E 3C 2B 1A C9 AB`). -/
def exampleAt (off : Nat) : List Host.Cell :=
  [(off, 0x9B), (off + 1, 0x6A), (off + 2, 0x5E), (off + 3, 0x3C), (off + 4, 0x2B), (off + 5, 0x1A), (off + 6, 0xC9),
    (off + 7, 0xAB)]

/-! ## WellFormed refuses -/

theorem smoke_xfId_width_zero : (Instr.xfId 0 0).wellFormed = false := by decide
theorem smoke_xfId_width_65 : (Instr.xfId 65 0).wellFormed = false := by decide
theorem smoke_xfMinbin_u32_maxLen : (Instr.xfMinbin (.u32 22 (2 ^ 64))).wellFormed = false := by decide
theorem smoke_xfMinbin_u64_maxLen : (Instr.xfMinbin (.u64 22 (2 ^ 64))).wellFormed = false := by decide

/-! ## Words (log entry 1: row number of R100, operands little-endian) -/

theorem word_extractors :
    decode [1, 3, 0, 0, 0, 0, 0, 0, 0, 2, 0, 0, 0, 0, 0, 0, 0x80] = .ok (.bfx64 3 0x8000000000000002, []) ∧
    decode [2, 0xEF, 0xBE, 0xAD, 0xDE, 0, 0xFF, 0xFF, 0] = .ok (.bfx32 0xDEADBEEF 0x00FFFF00, []) ∧
    decode [3, 0xA7, 0x05, 0xF8, 0xFF] = .ok (.bfx16 0x05A7 0xFFF8, []) := ⟨rfl, rfl, rfl⟩

theorem word_transforms :
    decode [4, 31, 0xFF, 0xFF, 0xFF, 0x7F, 0, 0, 0, 0] = .ok (.xfId 31 0x7FFFFFFF, []) ∧
    decode [5, 0, 0x35, 0x0F] = .ok (.xfScale4 (.value 0xF35), []) ∧ decode [5, 1] = .ok (.xfScale4 .entry, []) ∧
    decode [6, 0, 0x16, 0, 0, 0, 8, 0, 0, 0, 0, 0, 0, 0] = .ok (.xfMinbin (.u32 22 8), []) ∧
    decode [6, 1, 0, 0, 0, 0, 0, 0, 0, 0x80, 66, 0, 0, 0, 0, 0, 0, 0] =
      .ok (.xfMinbin (.u64 0x8000000000000000 66), []) ∧
    decode [6, 2] = .ok (.xfMinbin .clkState, []) := ⟨rfl, rfl, rfl, rfl, rfl, rfl⟩

theorem word_header :
    decode [7] = .ok (.ldPktno, []) ∧ decode [8] = .ok (.ldStatus, []) ∧ decode [9] = .ok (.exClkState, []) ∧
    decode [10] = .ok (.exI2cStatus, []) ∧ decode [11] = .ok (.exAdcClkSel, []) ∧ decode [12] = .ok (.exAsicEn, []) ∧
    decode [13] = .ok (.decHdr, []) := ⟨rfl, rfl, rfl, rfl, rfl, rfl, rfl⟩

theorem word_count :
    decode [14] = .ok (.ldCount, []) ∧ decode [15] = .ok (.exCount, []) ∧ decode [16] = .ok (.chkCount, []) :=
  ⟨rfl, rfl, rfl⟩

theorem word_entry :
    decode [17] = .ok (.ldEntry, []) ∧ decode [18] = .ok (.exAdc, []) ∧ decode [19] = .ok (.exTsFpga, []) ∧
    decode [20] = .ok (.exTsAsic, []) ∧ decode [21] = .ok (.exChannelId, []) ∧ decode [22] = .ok (.exAsicId, []) ∧
    decode [23] = .ok (.exPileUp, []) ∧ decode [24] = .ok (.exOverflow, []) ∧ decode [25] = .ok (.decEntry, []) :=
  ⟨rfl, rfl, rfl, rfl, rfl, rfl, rfl, rfl, rfl⟩

theorem word_frame :
    decode [26] = .ok (.chkLen, []) ∧ decode [27] = .ok (.start, []) ∧ decode [28] = .ok (.decode, []) ∧
    decode [29] = .ok (.assertLayout, []) ∧ decode [30] = .ok (.summary, []) := ⟨rfl, rfl, rfl, rfl, rfl⟩

theorem word_rejected :
    decode [] = .error .empty ∧ decode [0] = .error (.noSuchOperation 0) ∧ decode [31] = .error (.noSuchOperation 31) ∧
    decode [3, 1, 2, 3] = .error .truncatedOperands ∧ decode [5, 2, 0, 0] = .error (.noSuchForm 2) ∧
    decode [6, 3] = .error (.noSuchForm 3) ∧ decode [4, 65, 0, 0, 0, 0, 0, 0, 0, 0] = .error (.noSuchWidth 65) ∧
    decode [5, 0, 0, 0x10] = .error .operandTooWide ∧
    decode [4, 4, 0x10, 0, 0, 0, 0, 0, 0, 0] = .error .operandTooWide :=
  ⟨rfl, rfl, rfl, rfl, rfl, rfl, rfl, rfl, rfl⟩

theorem word_as_table_number : decodeTableWord 8 27 = some .start ∧ decodeTableWord 32 0x0F350005 = some (.xfScale4 (.value 0xF35)) := by
  decide

theorem word_placed_runs :
    (nextOf (step ((withStatus 0x160925).withFetchWord 8 9))).bind (fun t => t.regs.clkState) = some 22 := by decide

/-! ## Extractor (T1, R122, R126) -/

theorem test_bfx64 :
    (nextOf (exec (.bfx64 0xABC91A2B3C5E6A9B 0xFFF0000000000000) State.reset)).bind (fun t => t.returned) =
      some (.bfx64 0xABC) := by decide
theorem test_bfx64_top_bit_and_zero_mask :
    extract (0xABC91A2B3C5E6A9B : BitVec 64) 0x8000000000000000 = 1 ∧
    extract (0xABC91A2B3C5E6A9B : BitVec 64) 0 = 0 := by decide
theorem test_bfx32 :
    (nextOf (exec (.bfx32 0xDEADBEEF 0x00FFFF00) State.reset)).bind (fun t => t.returned) = some (.bfx32 0xADBE) := by
  decide
theorem test_bfx32_holes_are_kept : extract (0xB6 : BitVec 32) 0xA4 = 0x29 := by decide
theorem test_bfx16 :
    (nextOf (exec (.bfx16 0x05A7 0xFFF8) State.reset)).bind (fun t => t.returned) = some (.bfx16 0xB4) := by decide

/-! ## Transforms (T2, T3) -/

theorem test_xfId :
    (nextOf (exec (.xfId 31 0x7FFFFFFF) State.reset)).bind (fun t => t.returned) = some (.identity 31 0x7FFFFFFF) := by
  decide
theorem test_xfScale4_value :
    (nextOf (exec (.xfScale4 (.value 0xFFF)) State.reset)).bind (fun t => t.returned) = some (.scaled 0x3FFC) := by
  decide
theorem test_xfScale4_entry :
    (nextOf (exec (.xfScale4 .entry) { State.reset with
      idx := some 179, ent := State.reset.ent.set 179 { EntrySlot.empty with timestampAsic := some 0xF35 } })).bind
      (fun t => t.ent[179].timestampAsicDisp) = some 0x3CD4 := by decide
theorem test_xfMinbin_truncates :
    (nextOf (exec (.xfMinbin (.u32 22 5)) State.reset)).bind (fun t => t.returned) =
      some (.text [0x31, 0x30, 0x31, 0x31, 0]) ∧
    minbin (22 : BitVec 32) 6 = [0x31, 0x30, 0x31, 0x31, 0x30, 0] ∧ minbin (0 : BitVec 32) 2 = [0x30, 0] ∧
    minbin (0 : BitVec 32) 0 = [] := by decide
theorem test_xfMinbin_exact_fit :
    minbin (22 : BitVec 32) 7 = [0x31, 0x30, 0x31, 0x31, 0x30, 0x62, 0] ∧
    minbin (0x8000000000000000 : BitVec 64) 65 = 0x31 :: List.replicate 63 0x30 ++ [0] := by decide

/-! ## Header (T4) -/

theorem test_ldPktno :
    (nextOf (exec .ldPktno (on 8 [(0, 0xEF), (1, 0xCD), (2, 0xAB), (3, 0x89), (4, 0x67), (5, 0x45), (6, 0x23), (7, 1)]))).bind
      (fun t => t.regs.packetNo) = some 0x0123456789ABCDEF := by decide
theorem test_ldStatus :
    (nextOf (exec .ldStatus (on 16 [(8, 0x11), (12, 0x55), (13, 0x25), (14, 0x09), (15, 0x16)]))).bind
      (fun t => t.regs.status24) = some 0x160925 := by decide
theorem test_exClkState :
    (nextOf (exec .exClkState (withStatus 0x160925))).bind (fun t => t.regs.clkState) = some 22 := by decide
theorem test_exI2cStatus :
    (nextOf (exec .exI2cStatus (withStatus 0x160925))).bind (fun t => t.regs.i2cStatus) = some 9 := by decide
theorem test_exAdcClkSel :
    (nextOf (exec .exAdcClkSel (withStatus 0x160925))).bind (fun t => t.regs.adcClkSel) = some 2 := by decide
theorem test_exAsicEn :
    (nextOf (exec .exAsicEn (withStatus 0x160925))).bind (fun t => t.regs.asicEnableStatus) = some 5 := by decide
theorem test_status_reserved_bits_are_ignored :
    statusOf 0xE0F0C0 = ⟨0, 0, 0, 0⟩ ∧ (statusField 0xE0F0C0 clkStateMask : BitVec 5) = 0 ∧
    (statusField 0xE0F0C0 adcClkSelMask : BitVec 2) = 0 := by decide
theorem test_decHdr :
    (nextOf (exec .decHdr (on 1458 [(0, 7), (13, 0x25), (14, 0x09), (15, 0x16)]))).map (fun t => t.regs) =
      some { Regs.empty with
        packetNo := some 7, status24 := some 0x160925, clkState := some 22, i2cStatus := some 9, adcClkSel := some 2,
        asicEnableStatus := some 5, clkStateStr := some [0x31, 0x30, 0x31, 0x31, 0x30, 0x62, 0] } := by decide

theorem test_decHdr_in_a_build_of_6 :
    (nextOf (exec .decHdr (inBuild ⟨6, by decide⟩ (on 16 [(15, 0x1F)])))).bind (fun t => t.regs.clkStateStr) =
      some [0x31, 0x31, 0x31, 0x31, 0x31, 0] := by decide

/-! ## Count (T5) -/

theorem test_ldCount : (nextOf (exec .ldCount (beforeCount 0xA0 0x05))).bind (fun t => t.regs.countRaw) = some 0x05A0 := by
  decide
theorem test_exCount :
    (nextOf (exec .exCount { State.reset with regs := { Regs.empty with countRaw := some 0x05A7 } })).bind
      (fun t => t.regs.dataCount) = some 180 := by decide
theorem test_chkCount_passes :
    (nextOf (exec .chkCount (counted .cnt 9 180))).map (fun t => (t.phase, t.idx, t.done)) =
      some (.ent, some 0, false) := by decide
theorem test_chkCount_raises :
    (nextOf (exec .chkCount (counted .cnt 9 181))).map (fun t => (t.phase, t.outcomePort, t.done, t.resultValid)) =
      some (.done, some 2, true, false) := by decide

/-! ## Data entries (T6 and the running example `0xABC91A2B3C5E6A9B`) -/

theorem test_ldEntry :
    (nextOf (exec .ldEntry { on 1458 (exampleAt 1448) with idx := some 179 })).map (fun t => (t.regs.word, t.idx)) =
      some (some 0xABC91A2B3C5E6A9B, some 179) := by decide
theorem test_exAdc :
    (nextOf (exec .exAdc (withWord 0 0xABC91A2B3C5E6A9B))).bind (fun t => t.ent[0].adc) = some 0xABC := by decide
theorem test_exTsFpga :
    (nextOf (exec .exTsFpga (withWord 1 0xABC91A2B3C5E6A9B))).bind (fun t => t.ent[1].timestampFpga) =
      some 0x48D159E2 := by decide
theorem test_exTsAsic :
    (nextOf (exec .exTsAsic (withWord 179 0xABC91A2B3C5E6A9B))).map
      (fun t => (t.ent[179].timestampAsic, t.ent[179].timestampAsicDisp)) = some (some 0xF35, some 0x3CD4) := by decide
theorem test_exChannelId :
    (nextOf (exec .exChannelId (withWord 0 0x0123456789ABCDEF))).bind (fun t => t.ent[0].channelId) = some 30 := by decide
theorem test_exAsicId :
    (nextOf (exec .exAsicId (withWord 0 0xABC91A2B3C5E6A9B))).bind (fun t => t.ent[0].asicId) = some 2 := by decide
theorem test_exPileUp :
    (nextOf (exec .exPileUp (withWord 0 0x0000000000000002))).bind (fun t => t.ent[0].pileUp) = some 1 := by decide
theorem test_exOverflow :
    (nextOf (exec .exOverflow (withWord 0 0x0000000000000002))).bind (fun t => t.ent[0].overflow) = some 0 := by decide
theorem test_decEntry :
    (nextOf (exec .decEntry { on 1458 (exampleAt 24) with idx := some 1 })).map (fun t => t.ent[1]) =
      some (EntrySlot.of ⟨0xABC, 0x48D159E2, 0xF35, 0x3CD4, 9, 2, 1, 1, 1⟩) := by decide

/-! ## Frame decoder (T7, P0 to P3) -/

theorem test_chkLen_passes :
    (nextOf (exec .chkLen { atPhase .len with regs := { Regs.empty with len := some 1458 } })).map
      (fun t => (t.phase, t.done)) = some (.hdr, false) := by decide
theorem test_chkLen_raises :
    (nextOf (exec .chkLen { atPhase .len with regs := { Regs.empty with len := some 1457 } })).map
      (fun t => (t.phase, t.outcomePort, t.resultPort)) = some (.done, some 1, none) := by decide
theorem test_start :
    (nextOf (exec .start { atPhase .done with done := true, outcome := some .ok, frameLen := 1458 })).map
      (fun t => (t.phase, t.done, t.outcome, t.regs.len)) = some (.len, false, none, some 1458) := by decide
theorem test_start_while_busy : exec .start (atPhase .ent) = .fault .startWhileBusy := rfl
theorem test_decode_V8 : (nextOf (exec .decode (on 1458 frameP0))).bind (fun t => t.resultPort) = some packetV8 := by
  decide
theorem test_decode_malformed :
    (nextOf (exec .decode (on 1458 [(0, 7), (1456, 0xA8), (1457, 5)]))).map
      (fun t => (t.outcomePort, t.resultPort, t.regs.packetNo, t.idx)) = some (some 2, none, some 7, none) := by decide
theorem test_assertLayout : exec .assertLayout State.reset = .next State.reset := rfl
theorem test_assertLayout_refuses_a_broken_sum : layoutHolds ⟨181, 1458, 8⟩ = false := by decide
theorem test_summary :
    (nextOf (exec .summary { atPhase .done with result := some packetV8 })).bind (fun t => t.returned) =
      some (.summary "no: 42, size: 1".toList) := by decide
theorem test_summary_longest_numeral : dec (0xFFFFFFFFFFFFFFFF : BitVec 64) = "18446744073709551615".toList := by decide

/-! ## Steps -/

theorem test_step_takes_start :
    (nextOf (step { on 1458 frameP0 with start := true, frameLen := 1458 })).map
      (fun t => (t.phase, t.start, t.regs.len)) = some (.len, false, some 1458) := by decide
theorem test_step_entry_rises :
    (nextOf (step { counted .ent 0 1 with frame := { len := 1458, cells := frameP0 } })).map
      (fun t => (t.phase, t.idx, t.ent[0].pileUp)) = some (.ent, some 1, some 1) := by decide
theorem test_step_commits_an_empty_packet :
    (nextOf (step (counted .ent 0 0))).map (fun t => (t.phase, t.outcomePort, t.result.map (fun p => p.entries))) =
      some (.done, some 0, some []) := by rfl
theorem test_rst_comes_first :
    (nextOf (step { atPhase .cnt with rst := true, start := true })).map (fun t => (t.phase, t.rst, t.start)) =
      some (.idle, false, true) := by decide

/-! ## Witnesses: a state and operands for the hypotheses of each statement, at the ends of their ranges -/

theorem witness_CtzAndBitlenFindTheOuterSetBits :
    (0x1F0 : BitVec 64) ≠ 0 ∧ ctz (0x1F0 : BitVec 64) = 4 ∧ bitlen (0b10110 : BitVec 64) = 5 := by decide

theorem witness_ExtractionMasksAndRightJustifies :
    (0x8000 : BitVec 16) ≠ 0 ∧ ctz (0x8000 : BitVec 16) = 15 ∧ extract (0x8000 : BitVec 16) 0x8000 = 1 ∧
    extract (0x8000 : BitVec 16) 0 = 0 := by decide

theorem witness_ExtractionIsWidthIndependent :
    24 ≤ 64 ∧ extract (0x1F0F3F : BitVec 24) 0x000F00 = 15 ∧ extract (0x1F0F3F : BitVec 64) 0x000F00 = 15 := by decide

theorem witness_ContiguousMaskExtractionIsTheSlice :
    2 ≤ 4 ∧ 4 < 8 ∧ ∀ j, (0b00011100 : BitVec 8).getLsbD j = (decide (2 ≤ j) && decide (j ≤ 4)) := by
  refine ⟨by decide, by decide, fun j => ?_⟩
  rcases Nat.lt_or_ge j 8 with h | h
  · interval_cases j <;> rfl
  · rw [BitVec.getLsbD_of_ge _ _ h]; simp; omega

theorem witness_NonContiguousMaskKeepsItsHoles : (0b10100100 : BitVec 8) ≠ 0 := by decide

theorem witness_ExtractionLosesNothingInsideTheMask :
    (0xFFF0000000000000 : BitVec 64) ≠ 0 ∧ (0xABC : BitVec 64) <<< 52 = 0xABC91A2B3C5E6A9B &&& 0xFFF0000000000000 := by
  decide

/-- Slot 0 and slot 179 hold a canonical value to scale. -/
theorem witness_ScaleByFourCompletes :
    ∀ i ∈ ([0, 179] : List (BitVec 8)), ∃ (s : State) (h : i.toNat < Config.maxData),
      s.idx = some i ∧ s.ent[i.toNat].timestampAsic = some 0xFFF := by
  intro i hi
  let full : EntrySlot := { EntrySlot.empty with timestampAsic := some 0xFFF }
  have h : i.toNat < Config.maxData := by revert i; decide
  exact ⟨{ State.reset with idx := some i, ent := Vector.replicate Config.maxData full }, h, rfl, by simp [full]⟩

/-- `max_len` 1 (digits truncated away), `n + 1` (no marker) and `n + 2` (exact fit). -/
theorem witness_MinimalBinaryStringLaws :
    1 ≤ 1 ∧ (22 : BitVec 32) ≠ 0 ∧ min (bitsToPrint (22 : BitVec 32)) (1 - 1) = 0 ∧
    1 ≤ min (bitsToPrint (22 : BitVec 32)) (2 - 1) ∧ ¬ bitsToPrint (22 : BitVec 32) + 2 ≤ 6 ∧
    bitsToPrint (22 : BitVec 32) + 2 ≤ 7 ∧ minbin (22 : BitVec 32) 1 = [0] := by decide

theorem witness_MinimalBinaryStringWritesTheTopDigits :
    minbin (22 : BitVec 32) 0 = [] ∧ minbin (22 : BitVec 32) 2 = [0x31, 0] ∧ minbin (0 : BitVec 32) 3 = [0x30, 0x62, 0] := by
  decide

/-- The smallest build that never truncates, and the largest that does (T3: 31 at 7 and at 6). -/
theorem witness_ClkStateRenderingIsNeverTruncated :
    7 ≤ (⟨7, by decide⟩ : Config.StrMaxlen).val ∧ (⟨6, by decide⟩ : Config.StrMaxlen).val < 7 ∧
    clkStateText ⟨7, by decide⟩ 31 = [0x31, 0x31, 0x31, 0x31, 0x31, 0x62, 0] ∧ clkStateText ⟨1, by decide⟩ 31 = [0] := by
  decide

/-- Each load on the shortest buffer that holds its bytes. -/
theorem witness_LoadsReadTheirOffsets :
    (nextOf (exec .ldPktno (on 8 []))).isSome = true ∧ (nextOf (exec .ldStatus (on 16 []))).isSome = true ∧
    (nextOf (exec .ldCount (on 1458 []))).isSome = true ∧
    (nextOf (exec .ldEntry { on 24 [] with idx := some 0 })).isSome = true ∧
    (nextOf (exec .ldEntry { on 1456 [] with idx := some 179 })).isSome = true := by decide

theorem witness_NoStepWritesTheFrame : ∃ t, step (on 1458 frameP0) = .next t := ⟨_, rfl⟩

theorem witness_PresentedFrameIsCanonicalAndFaithful :
    (on 1458 frameP0).frame.wf ∧ Memory.ofBytes [0, 7, 0] = { len := 3, cells := [(1, 7)] } := by decide

theorem witness_StatusExtractionsTakeTheirBits : (withStatus 0xFFFFFF).regs.status24 = some 0xFFFFFF := rfl

theorem witness_HeaderDecodeGivesStatusOfThreeBytes : 16 ≤ (on 16 [(13, 0x0A)]).frame.len := by decide

theorem witness_CountExtractionShiftsByThree :
    (nextOf (exec .ldCount (beforeCount 0xFF 0xFF))).bind (fun t => t.regs.countRaw) = some 0xFFFF := by decide

theorem witness_CountCheckRejectsAbove180 :
    (counted .cnt 0 180).dataCountValue.toNat ≤ 180 ∧ 180 < (counted .cnt 0 181).dataCountValue.toNat ∧
    (counted .cnt 0 181).regs.dataCount = some 181 := by decide

/-- The largest raw word that passes and the smallest that fails. -/
theorem witness_CountStepIsAFunctionOfTwoBytes :
    HostQuiet (beforeCount 0xA7 5) ∧ (beforeCount 0xA7 5).phase = .cnt ∧ 1458 ≤ (beforeCount 0xA7 5).frame.len ∧
    (nextOf (step (beforeCount 0xA7 5))).map (fun t => t.phase) = some .ent ∧
    (nextOf (step (beforeCount 0xA8 5))).map (fun t => t.phase) = some .done := ⟨⟨rfl, rfl, rfl⟩, by decide⟩

theorem witness_EntryExtractionsTakeTheirBits :
    (withWord 179 3).idx = some 179 ∧ (179 : BitVec 8).toNat < Config.maxData ∧ (withWord 179 3).regs.word = some 3 := by
  decide

theorem witness_EntryDecodeWritesTheWholeSlot :
    ({ on 1456 [] with idx := some 179 } : State).idx = some 179 ∧ (179 : BitVec 8).toNat < Config.maxData ∧
    24 + 8 * (179 : BitVec 8).toNat ≤ (on 1456 []).frame.len := by decide

/-- Two blocks with different headers, other slots and lengths, and the same eight bytes in slot 1. -/
theorem witness_EntryDependsOnItsOwnBytesOnly :
    (∀ k, k < 8 → (on 1458 ((0, 7) :: exampleAt 24)).frame.byte (16 + 8 * (1 : BitVec 8).toNat + k) =
      (on 32 (exampleAt 24)).frame.byte (16 + 8 * (1 : BitVec 8).toNat + k)) ∧
    (nextOf (exec .decEntry { on 1458 ((0, 7) :: exampleAt 24) with idx := some 1 })).isSome = true ∧
    (nextOf (exec .decEntry { on 32 (exampleAt 24) with idx := some 1 })).isSome = true := by decide

theorem witness_LengthCheckAdmitsOnly1458 :
    ({ State.reset with regs := { Regs.empty with len := some 1458 } } : State).lenValue.toNat = 1458 ∧
    ({ State.reset with regs := { Regs.empty with len := some 1459 } } : State).lenValue.toNat ≠ 1458 ∧
    (saturatedLen 66994).toNat = 65535 := by decide

theorem witness_StartBeginsATransaction :
    (atPhase .idle).phase = .idle ∧ (atPhase .done).phase = .done ∧ (atPhase .len).phase = .len ∧
    (atPhase .hdr).phase = .hdr ∧ (atPhase .cnt).phase = .cnt ∧ (atPhase .ent).phase = .ent := by decide

theorem witness_StepsFollowThePhaseTable :
    HostQuiet (counted .ent 0 1) ∧ (counted .ent 0 1).idxValue.toNat < (counted .ent 0 1).dataCountValue.toNat ∧
    HostQuiet (counted .ent 180 180) ∧
    (counted .ent 180 180).idxValue.toNat = (counted .ent 180 180).dataCountValue.toNat ∧
    (counted .ent 180 180).dataCountValue.toNat ≤ 180 ∧
    (∀ p : Phase, HostQuiet (atPhase p) ∧ (atPhase p).phase = p) ∧
    ({ State.reset with start := true } : State).rst = false ∧ ({ State.reset with start := true } : State).opQueue = [] :=
  ⟨⟨rfl, rfl, rfl⟩, by decide, ⟨rfl, rfl, rfl⟩, by decide, by decide, fun _ => ⟨⟨rfl, rfl, rfl⟩, rfl⟩, rfl, rfl⟩

/-- An empty packet, and a packet of one entry whose slot is whole. -/
theorem witness_CommitPresentsTheWholeResult :
    HostQuiet (counted .ent 0 0) ∧ (counted .ent 0 0).idxValue.toNat = (counted .ent 0 0).dataCountValue.toNat ∧
    ∃ s : State, HostQuiet s ∧ s.phase = .ent ∧ s.idxValue.toNat = s.dataCountValue.toNat ∧ s.dataCountValue.toNat = 1 ∧
      s.regs.packetNo = some 42 ∧ s.ent[0] = EntrySlot.of ⟨0, 0, 0, 0, 0, 0, 1, 1, 0⟩ :=
  ⟨⟨rfl, rfl, rfl⟩, by decide, { counted .ent 1 1 with
    regs := { Regs.empty with packetNo := some 42, dataCount := some 1 }
    ent := State.reset.ent.set 0 (EntrySlot.of ⟨0, 0, 0, 0, 0, 0, 1, 1, 0⟩) },
    ⟨rfl, rfl, rfl⟩, rfl, by decide, by decide, rfl, by decide⟩

theorem witness_DecodeOperationPresentsTheFunction :
    (on 0 []).phase = .idle ∧ (nextOf (exec .decode (on 0 []))).map (fun t => t.outcomePort) = some (some 1) ∧
    (atPhase .done).phase = .done := by decide

/-- The launches of T7: 1, 3, 4, 5 and 184 steps after START. -/
theorem witness_MachineComputesDecode :
    ∀ l ∈ ([(1457, [], 1), (1458, [(1456, 0xA8), (1457, 5)], 3), (1458, [], 4), (1458, frameP0, 5),
        (1458, [(1456, 0xA0), (1457, 5)], 184)] : List (Nat × List Host.Cell × Nat)),
      ∃ s : State, s.phase = .idle ∧ s.rst = false ∧ s.opQueue = [] ∧ s.start = true ∧
        s.frameLen = saturatedLen s.frame.len ∧ stepsAfterStart (decodeFrame s.clkStrMaxlen s.frame) = l.2.2 := by
  intro l hl
  refine ⟨{ on l.1 l.2.1 with start := true, frameLen := saturatedLen l.1 }, rfl, rfl, rfl, rfl, rfl, ?_⟩
  revert l; decide

/-- P4 and its companion, cut to the header and the count: every reserved bit set, and every reserved bit clear. -/
theorem witness_ReservedBitsAndPaddingDoNotReachTheResult :
    ∃ a b : Memory, a.len = 1458 ∧ b.len = 1458 ∧ a ≠ b ∧ SameFootprint a b := by
  refine ⟨⟨1458, [(8, 0xFF), (13, 0xFF), (14, 0xFF), (15, 0xFF), (32, 0x0D), (1456, 0x17)]⟩,
    ⟨1458, [(13, 0x3F), (14, 0x0F), (15, 0x1F), (1456, 0x10)]⟩, rfl, rfl, by decide, by decide, by decide, by decide,
    by decide, by decide, by decide, fun _ k h₁ h₂ => ?_⟩
  have hk : k < 32 := Nat.lt_of_lt_of_le h₂ (by decide)
  interval_cases k <;> rfl

/-- The three kinds of buffer, the count at both sides of its bound. -/
theorem witness_OutcomesAreExactlyThree :
    decodeFrame Config.defaultStrMaxlen ⟨1457, []⟩ = .error .notThisProtocol ∧
    decodeFrame Config.defaultStrMaxlen ⟨1458, [(1456, 0xA8), (1457, 5)]⟩ = .error .malformedCount ∧
    ∃ p, decodeFrame Config.defaultStrMaxlen ⟨1458, [(1456, 0xA7), (1457, 5)]⟩ = .ok p := ⟨rfl, rfl, _, rfl⟩

theorem witness_DecodedPacketsAreGood : decodeFrame Config.defaultStrMaxlen ⟨1458, frameP0⟩ = .ok packetV8 := by rfl

/-- The same buffer on a block fresh from reset and on one that has ended another transaction. -/
theorem witness_TransactionsAreIndependentOfThePast :
    ∃ s s' : State, s.frame = s'.frame ∧ s.clkStrMaxlen = s'.clkStrMaxlen ∧ s ≠ s' ∧ (nextOf (exec .decode s)).isSome = true ∧
      (nextOf (exec .decode s')).isSome = true :=
  ⟨on 1458 frameP0, { on 1458 frameP0 with phase := .done, done := true, outcome := some .malformedCount, epoch := 3 },
    rfl, rfl, by decide, by decide, by decide⟩

theorem witness_SummaryIsTheDecimalLine :
    ({ atPhase .done with result := some packetV8 } : State).result = some packetV8 ∧ 64 ≤ 64 ∧
    dec (0 : BitVec 64) = ['0'] := by decide

theorem witness_StepRunsTheDecodedOperation :
    (State.reset.withFetchWord 8 13).rst = false ∧
    decode (State.reset.withFetchWord 8 13).opQueue = .ok (.decHdr, List.replicate 17 0) ∧
    (State.reset.withFetchWord 8 31).opQueue ≠ [] ∧
    decode (State.reset.withFetchWord 8 31).opQueue = .error (.noSuchOperation 31) := ⟨rfl, rfl, by decide, rfl⟩

/-- Each bound missed by one byte or one slot. -/
theorem witness_WhereTheSpecGivesNoStepTheModelStopsByName :
    exec .ldPktno (on 7 []) = .fault (.offsetOutsideFrame 0 8) ∧
    exec .decHdr (on 8 []) = .fault (.offsetOutsideFrame 13 3) ∧
    exec .decEntry { on 1464 [] with idx := some 180 } = .fault (.noSuchSlot 180) ∧
    step (counted .ent 1 0) = .fault .noEnabledStep ∧ step (counted .ent 181 181) = .fault (.noSuchSlot 180) ∧
    exec .ldStatus (on 15 []) = .fault (.offsetOutsideFrame 13 3) ∧
    exec .ldCount (on 1457 []) = .fault (.offsetOutsideFrame 1456 2) ∧
    exec .ldEntry { on 1455 [] with idx := some 179 } = .fault (.offsetOutsideFrame 1448 8) ∧
    exec .exAdc (withWord 180 3) = .fault (.noSuchSlot 180) ∧ exec .decode (atPhase .len) = .fault .startWhileBusy ∧
    exec .summary State.reset = .fault .noPacket := ⟨rfl, rfl, rfl, rfl, rfl, rfl, rfl, rfl, rfl, rfl, rfl⟩

theorem witness_ResetLeavesNoValue : ({ atPhase .ent with rst := true } : State).rst = true := rfl

theorem witness_OutcomeIsHeldUntilTheNextStart : HostQuiet (atPhase .done) ∧ (atPhase .done).phase = .done :=
  ⟨⟨rfl, rfl, rfl⟩, rfl⟩

theorem reset_slots_empty : EntriesRead State.reset 0 := fun k h => by simp [State.reset]

theorem witness_StepKeepsTheInvariant : Inv State.reset :=
  ⟨State.reset_frame_wf, rfl, by simp [State.reset], by simp [State.reset], by simp [State.reset],
    by simp [State.reset], by simp [State.reset], by simp [State.reset], rfl, rfl, reset_slots_empty⟩

theorem witness_StepKeepsTheInvariant_step : step State.reset = .next State.reset := step_of_quiet ⟨rfl, rfl, rfl⟩

/-- A block that meets the invariant before its commit, in LEN on the empty buffer. -/
theorem witness_CommitPresentsTheWholeResult_before :
    Inv { atPhase .len with regs := { Regs.empty with len := some 0 } } :=
  ⟨State.reset_frame_wf, rfl, by simp [atPhase, State.reset], by simp [atPhase, State.reset],
    by simp [atPhase, State.reset], by simp [atPhase, State.reset], by simp [atPhase, State.reset],
    by simp [atPhase, State.reset], rfl, reset_slots_empty⟩

theorem witness_PresentKeepsTheInvariant : Inv State.reset ∧ State.reset.phase = .idle :=
  ⟨witness_StepKeepsTheInvariant, rfl⟩

/-- The host has presented a buffer to a block fresh from reset. -/
theorem witness_RunningBlockIsNeverStuck : Inv (State.reset.present [1, 2, 3]) := by
  refine ⟨Memory.ofBytes_wf _, rfl, fun _ => ⟨by decide, show saturatedLen 3 = saturatedLen 3 from rfl⟩, ?_, ?_, ?_, ?_, ?_, ?_⟩
  all_goals simp [State.present, State.reset, PhaseInv, EntriesRead]

theorem witness_InternalConsistencyIsNeverRecorded :
    State.reset.outcome ≠ some .internalConsistency ∧ ∃ t, step State.reset = .next t :=
  ⟨by decide, _, witness_StepKeepsTheInvariant_step⟩

theorem witness_PureOperationsFrame :
    (∃ t, exec (.bfx64 3 2) State.reset = .next t) ∧ (∃ t, exec (.xfMinbin (.u64 3 2)) State.reset = .next t) ∧
    ∃ t, exec .summary { atPhase .done with result := some packetV8 } = .next t := ⟨⟨_, rfl⟩, ⟨_, rfl⟩, _, rfl⟩

theorem witness_RegisterOperationsFrame :
    (nextOf (exec .decHdr (on 1458 frameP0))).isSome = true ∧ (nextOf (exec .ldCount (on 1458 frameP0))).isSome = true ∧
    (nextOf (exec .ldEntry { on 1458 frameP0 with idx := some 0 })).isSome = true ∧
    (nextOf (exec .exClkState (withStatus 0x1F0F3F))).isSome = true ∧
    (nextOf (exec .exCount { State.reset with regs := { Regs.empty with countRaw := some 8 } })).isSome = true := by decide

theorem witness_EntryOperationsFrame :
    (179 : BitVec 8).toNat < Config.maxData ∧ (withWord 179 3).idx = some 179 ∧
    (nextOf (exec .exTsAsic (withWord 179 3))).isSome = true ∧
    (nextOf (exec .decEntry { on 1458 frameP0 with idx := some 179 })).isSome = true := by decide

theorem witness_ControlOperationsFrame :
    (nextOf (exec .chkLen { atPhase .len with regs := { Regs.empty with len := some 1458 } })).isSome = true ∧
    (nextOf (exec .chkCount (counted .cnt 0 180))).isSome = true ∧ (nextOf (exec .start State.reset)).isSome = true ∧
    (nextOf (exec .decode (on 1458 frameP0))).isSome = true := by decide

theorem witness_DecodeOfEncodeIsTheOperation :
    (Instr.xfId 1 1).wellFormed = true ∧ (Instr.xfId 64 0xFFFFFFFFFFFFFFFF).wellFormed = true ∧
    (Instr.xfMinbin (.u32 22 (2 ^ 64 - 1))).wellFormed = true ∧ (Instr.xfMinbin (.u64 22 0)).wellFormed = true ∧
    Instr.decHdr.wellFormed = true := by decide

theorem witness_DecodedBytesAreTheOperationsWords : decode [5, 0, 0xFF, 0x0F, 9] = .ok (.xfScale4 (.value 0xFFF), [9]) :=
  rfl

end Sys2Proof.Machine.Tests
end

/-! PROOFS about memory reads (`20_memory.md` R51 and R52). A read is determined by three rules: its value is bounded by
its length, it is the weighted sum of its bytes, and a longer read splits at any byte boundary. -/

namespace Sys2Proof.Machine

/-- A read of `n` bytes is a `u<8n>` (R51). -/
theorem Memory.readLE_lt (m : Memory) (off n : Nat) : m.readLE off n < 2 ^ (8 * n) := by
  induction n generalizing off with
  | zero => simp
  | succ n ih =>
    have first := (m.byte off).isLt
    have rest := ih (off + 1)
    rw [readLE_succ, Nat.mul_succ, Nat.pow_add]
    omega

/-- The sum of R51, by induction on the length: byte `k + 1` of the read is byte `k` of the read one offset further on. -/
theorem Memory.readLE_eq_sum (m : Memory) (off n : Nat) :
    m.readLE off n = ((List.range n).map fun k => (m.byte (off + k)).toNat * 2 ^ (8 * k)).sum := by
  induction n generalizing off with
  | zero => rfl
  | succ n ih =>
    have weight (k : Nat) : (m.byte (off + (k + 1))).toNat * 2 ^ (8 * (k + 1)) =
        256 * ((m.byte (off + 1 + k)).toNat * 2 ^ (8 * k)) := by
      rw [Nat.add_comm k 1, ← Nat.add_assoc, Nat.mul_add, Nat.pow_add, Nat.mul_left_comm]
    rw [readLE_succ, ih (off + 1), List.range_succ_eq_map, List.map_cons, List.sum_cons, List.map_map]
    simp [Function.comp_def, weight, List.sum_map_mul_left]

/-- A read splits at any byte boundary: its first `n` bytes are the low `8 * n` bits. -/
theorem Memory.readLE_add (m : Memory) (off n k : Nat) :
    m.readLE off (n + k) = m.readLE off n + 2 ^ (8 * n) * m.readLE (off + n) k := by
  induction n generalizing off with
  | zero => simp
  | succ n ih =>
    have shifted : off + 1 + n = off + (n + 1) := by omega
    rw [Nat.add_right_comm, readLE_succ, readLE_succ, ih, shifted]
    ring

/-- Shifting a read right by whole bytes leaves the read that starts as many offsets further on: a narrow read sees the
bytes at its own offsets (R52). -/
theorem Memory.readLE_shiftRight (m : Memory) (off n k : Nat) :
    m.readLE off (n + k) >>> (8 * n) = m.readLE (off + n) k := by
  rw [readLE_add, Nat.shiftRight_eq_div_pow, Nat.add_mul_div_left _ _ (by positivity),
    Nat.div_eq_of_lt (m.readLE_lt off n), Nat.zero_add]

/-- Settles O17: the sum by `Memory.readLE_eq_sum`, the bound by `Memory.readLE_lt`. -/
theorem memReadIsLittleEndian : Obligations.MemReadIsLittleEndian :=
  fun m off n => ⟨m.readLE_eq_sum off n, m.readLE_lt off n⟩

/-- Settles O18: the 8-byte read at offset 8 splits after its five reserved bytes. -/
theorem narrowReadSeesTheTopOfTheWideOne : Obligations.NarrowReadSeesTheTopOfTheWideOne :=
  fun m => (m.readLE_shiftRight 8 5 3).symm

end Sys2Proof.Machine

/-! PROOFS about encodings (`30_encoding.md` R88, R91 and R97). The bits of an extraction follow from where `ctz` stops;
under the mask that selects one field, an extraction is that field's slice, in whichever container the field lies. -/

namespace Sys2Proof.Machine

/-- Given enough bits to look at, `ctzFrom` stops at the least significant set bit. -/
theorem ctzFrom_eq {w : Nat} {v : BitVec w} {k : Nat} (set : v.getLsbD k = true)
    (clear : ∀ j < k, v.getLsbD j = false) (i fuel : Nat) (reached : i ≤ k) (enough : k < i + fuel) :
    ctzFrom v i fuel = k := by
  induction fuel generalizing i with
  | zero => omega
  | succ fuel ih =>
    rcases Nat.lt_or_eq_of_le reached with before | rfl
    · have skip : ctzFrom v i (fuel + 1) = ctzFrom v (i + 1) fuel := by simp [ctzFrom, clear i before]
      rw [skip]
      exact ih (i + 1) (by omega) (by omega)
    · simp [ctzFrom, set]

/-- A set bit with none below it is where `ctz` points (R12). -/
theorem ctz_eq {w : Nat} {v : BitVec w} {k : Nat} (set : v.getLsbD k = true)
    (clear : ∀ j < k, v.getLsbD j = false) : ctz v = k :=
  ctzFrom_eq set clear 0 w (Nat.zero_le k) (by simpa using BitVec.lt_of_getLsbD set)

/-- An extraction moves the selected bits down by `ctz` and keeps the mask's holes (R126). -/
theorem getLsbD_extract {w : Nat} (word : BitVec w) {mask : BitVec w} (nonzero : mask ≠ 0) (i : Nat) :
    (extract word mask).getLsbD i = (word.getLsbD (ctz mask + i) && mask.getLsbD (ctz mask + i)) := by
  rw [extract, if_neg nonzero, BitVec.getLsbD_ushiftRight, BitVec.getLsbD_and]

/-- Under the mask of the `n` bits from `lo` on, an extraction narrowed to `n` bits is the slice (R125). -/
theorem setWidth_extract_eq_slice {w : Nat} (word : BitVec w) {mask : BitVec w} (lo n : Nat) (pos : 0 < n)
    (inside : lo + n ≤ w) (selects : ∀ j < w, mask.getLsbD j = (decide (lo ≤ j) && decide (j < lo + n))) :
    (extract word mask).setWidth n = word.extractLsb' lo n := by
  have first : mask.getLsbD lo = true := by simp [selects lo (by omega), pos]
  have clear : ∀ j < lo, mask.getLsbD j = false := fun j below => by simp [selects j (by omega), below]
  have nonzero : mask ≠ 0 := by rintro rfl; simp at first
  apply BitVec.eq_of_getLsbD_eq
  intro i hi
  have selected : mask.getLsbD (lo + i) = true := by simp [selects (lo + i) (by omega), hi]
  simp [getLsbD_extract word nonzero, ctz_eq first clear, selected]

/-- A slice of a slice is a slice of the whole. -/
theorem extractLsb'_extractLsb'_eq {w : Nat} (v : BitVec w) {lo n len : Nat} (start : Nat) (inside : lo + n ≤ len) :
    (v.extractLsb' start len).extractLsb' lo n = v.extractLsb' (start + lo) n := by
  apply BitVec.eq_of_getLsbD_eq
  intro i hi
  simp [Nat.add_assoc, hi, show lo + i < len by omega]

/-- The last `k` bytes of a read are the top bytes of the word read (R52). -/
theorem Memory.extractLsb'_le (m : Memory) (off n k : Nat) :
    (m.le off (n + k) (8 * (n + k))).extractLsb' (8 * n) (8 * k) = m.le (off + n) k (8 * k) := by
  apply BitVec.eq_of_toNat_eq
  rw [BitVec.extractLsb'_toNat, le, BitVec.toNat_ofNat, Nat.mod_eq_of_lt (m.readLE_lt off (n + k)),
    readLE_shiftRight, le, BitVec.toNat_ofNat]

/-- Extracting a field of the last three bytes from the 8-byte container, under the field's mask moved up by 40 bits,
gives the field's slice of the 3-byte read. -/
theorem Memory.setWidth_extract_container (m : Memory) (off : Nat) {mask : BitVec 64} (lo n : Nat) (pos : 0 < n)
    (inside : lo + n ≤ 24)
    (selects : ∀ j < 64, mask.getLsbD j = (decide (40 + lo ≤ j) && decide (j < 40 + lo + n))) :
    (extract (m.le off 8 64) mask).setWidth n = (m.le (off + 5) 3 24).extractLsb' lo n :=
  calc (extract (m.le off 8 64) mask).setWidth n
    _ = (m.le off 8 64).extractLsb' (40 + lo) n := setWidth_extract_eq_slice _ _ n pos (by omega) selects
    _ = ((m.le off 8 64).extractLsb' 40 24).extractLsb' lo n := (extractLsb'_extractLsb'_eq _ 40 inside).symm
    _ = (m.le (off + 5) 3 24).extractLsb' lo n := congrArg _ (m.extractLsb'_le off 5 3)

/-- Settles O19: each container mask selects its field, moved up by the five bytes that lie below the status. -/
theorem containerMasksGiveTheSameStatus : Obligations.ContainerMasksGiveTheSameStatus := fun m =>
  ⟨m.setWidth_extract_container 8 16 5 (by decide) (by decide) (by decide),
    m.setWidth_extract_container 8 8 4 (by decide) (by decide) (by decide),
    m.setWidth_extract_container 8 4 2 (by decide) (by decide) (by decide),
    m.setWidth_extract_container 8 0 4 (by decide) (by decide) (by decide)⟩

/-- Settles O9: the values by definition, each union and each list of pairs by computation on the literals. -/
theorem maskLiteralsAreDisjointAndCover : Obligations.MaskLiteralsAreDisjointAndCover :=
  ⟨rfl, rfl, rfl, rfl, by decide, by decide, rfl, rfl, rfl, rfl, rfl, rfl, rfl, by decide, by decide⟩

end Sys2Proof.Machine

/-! PROOFS about the extractor (`40_extractor.md` R120 and R124 to R128). The bits of a result follow from where `ctz`
and `bitlen` point; a contiguous mask then gives the slice, and masks that cover a word give the word back. -/

namespace Sys2Proof.Machine

/-! ## The outer set bits of a mask (R12) -/

/-- Of a non-zero value the model's `ctz` is the library's count of trailing zeros. -/
theorem ctz_eq_bitVecCtz {w : Nat} {v : BitVec w} (nonzero : v ≠ 0) : ctz v = v.ctz.toNat :=
  ctz_eq (BitVec.getLsbD_true_ctz_of_ne_zero nonzero) fun _ below => BitVec.getLsbD_false_of_lt_ctz below

theorem getLsbD_ctz {w : Nat} {v : BitVec w} (nonzero : v ≠ 0) : v.getLsbD (ctz v) = true :=
  ctz_eq_bitVecCtz nonzero ▸ BitVec.getLsbD_true_ctz_of_ne_zero nonzero

theorem getLsbD_of_lt_ctz {w : Nat} {v : BitVec w} (nonzero : v ≠ 0) {j : Nat} (below : j < ctz v) :
    v.getLsbD j = false :=
  BitVec.getLsbD_false_of_lt_ctz (ctz_eq_bitVecCtz nonzero ▸ below)

theorem ctz_lt_width {w : Nat} {v : BitVec w} (nonzero : v ≠ 0) : ctz v < w :=
  BitVec.lt_of_getLsbD (getLsbD_ctz nonzero)

/-- Between where `bitlenBelow` stops and where it starts, no bit is set. -/
theorem getLsbD_of_bitlenBelow_le {w : Nat} (v : BitVec w) {i j : Nat} (above : bitlenBelow v i ≤ j) (below : j < i) :
    v.getLsbD j = false := by
  induction i with
  | zero => omega
  | succ i ih =>
    by_cases top : v.getLsbD i = true
    · simp only [bitlenBelow, top, if_true] at above
      omega
    · simp only [bitlenBelow, top] at above
      rcases Nat.lt_succ_iff_lt_or_eq.mp below with inside | rfl
      · exact ih above inside
      · simpa using top

theorem getLsbD_of_bitlen_le {w : Nat} (v : BitVec w) {j : Nat} (above : bitlen v ≤ j) : v.getLsbD j = false := by
  by_cases inside : j < w
  · exact getLsbD_of_bitlenBelow_le v above inside
  · exact BitVec.getLsbD_of_ge v j (Nat.le_of_not_lt inside)

/-! ## The general rule (R120, R126, R127) -/

@[simp] theorem extract_zero_mask {w : Nat} (word : BitVec w) : extract word 0#w = 0#w := if_pos rfl

theorem extract_of_nonzero {w : Nat} (word : BitVec w) {mask : BitVec w} (nonzero : mask ≠ 0) :
    extract word mask = (word &&& mask) >>> ctz mask := if_neg nonzero

@[simp] theorem extract_zero_word {w : Nat} (mask : BitVec w) : extract 0#w mask = 0#w := by simp [extract]

/-- Under the full mask nothing is cleared and nothing is shifted; at width 0 the full mask is the zero mask. -/
theorem extract_allOnes {w : Nat} (word : BitVec w) : extract word (BitVec.allOnes w) = word := by
  rcases Nat.eq_zero_or_pos w with rfl | pos
  · exact Subsingleton.elim _ _
  · have first : (BitVec.allOnes w).getLsbD 0 = true := by simp [pos]
    have nonzero : BitVec.allOnes w ≠ 0 := fun zero => by simp [zero] at first
    rw [extract_of_nonzero word nonzero, ctz_eq first (by simp), BitVec.and_allOnes, BitVec.ushiftRight_zero]

/-- Where the mask has no bit from `ctz mask + n` on, an extraction has at most `n` bits. -/
theorem toNat_extract_lt {w : Nat} (word : BitVec w) {mask : BitVec w} (nonzero : mask ≠ 0) {n : Nat}
    (clear : ∀ j, ctz mask + n ≤ j → mask.getLsbD j = false) : (extract word mask).toNat < 2 ^ n := by
  refine Nat.lt_pow_two_of_testBit _ fun i above => ?_
  rw [BitVec.testBit_toNat, getLsbD_extract word nonzero, clear _ (by omega), Bool.and_false]

/-- Shifting an extraction back gives every bit the mask had not cleared (R127). -/
theorem extract_shiftLeft_ctz {w : Nat} (word : BitVec w) {mask : BitVec w} (nonzero : mask ≠ 0) :
    extract word mask <<< ctz mask = word &&& mask := by
  apply BitVec.eq_of_getLsbD_eq
  intro i inside
  rw [BitVec.getLsbD_shiftLeft, getLsbD_extract word nonzero, BitVec.getLsbD_and]
  by_cases below : i < ctz mask
  · simp [below, getLsbD_of_lt_ctz nonzero below]
  · simp [inside, below, Nat.add_sub_of_le (Nat.le_of_not_lt below)]

/-- Settles O2: each corner case by its own lemma, the bound because the mask has no bit from `bitlen` on. -/
theorem extractionMasksAndRightJustifies : Obligations.ExtractionMasksAndRightJustifies := by
  refine fun w word mask => ⟨?zeroMask, ?general, extract_allOnes word, extract_zero_word mask, ?bound⟩
  case zeroMask => rintro rfl; exact extract_zero_mask word
  case general => exact fun nonzero => ⟨extract_of_nonzero word nonzero, ctz_lt_width nonzero⟩
  case bound =>
    exact fun nonzero => toNat_extract_lt word nonzero fun j above => getLsbD_of_bitlen_le mask (by omega)

/-- Settles O6: the bits of an extraction are `getLsbD_extract`; the example is computed. -/
theorem nonContiguousMaskKeepsItsHoles : Obligations.NonContiguousMaskKeepsItsHoles :=
  ⟨fun _ word mask i nonzero => Nat.add_comm i (ctz mask) ▸ getLsbD_extract word nonzero i, by decide⟩

/-- Settles O7, which is `extract_shiftLeft_ctz`. -/
theorem extractionLosesNothingInsideTheMask : Obligations.ExtractionLosesNothingInsideTheMask :=
  fun _ word _ nonzero => extract_shiftLeft_ctz word nonzero

/-! ## Width independence (R124) -/

/-- Zero extension adds no set bit below or at the first one. -/
theorem ctz_setWidth {w w' : Nat} {v : BitVec w} (nonzero : v ≠ 0) (wider : w ≤ w') : ctz (v.setWidth w') = ctz v := by
  have inside : ctz v < w' := Nat.lt_of_lt_of_le (ctz_lt_width nonzero) wider
  apply ctz_eq
  · simp [inside, getLsbD_ctz nonzero]
  · intro j below
    simp [getLsbD_of_lt_ctz nonzero below]

theorem setWidth_ne_zero {w w' : Nat} {v : BitVec w} (nonzero : v ≠ 0) (wider : w ≤ w') : v.setWidth w' ≠ 0 := by
  intro zero
  apply nonzero
  rw [← BitVec.setWidth_eq v, ← BitVec.setWidth_setWidth_of_le v wider, zero]
  simp

/-- The zero mask apart, the two masks have one `ctz`, and each bit of the two results is the same. -/
theorem extract_setWidth {w w' : Nat} (word mask : BitVec w) (wider : w ≤ w') :
    extract (word.setWidth w') (mask.setWidth w') = (extract word mask).setWidth w' := by
  by_cases zero : mask = 0
  · simp [zero]
  · apply BitVec.eq_of_getLsbD_eq
    intro i inside
    rw [getLsbD_extract _ (setWidth_ne_zero zero wider), ctz_setWidth zero wider, BitVec.getLsbD_setWidth,
      BitVec.getLsbD_setWidth, BitVec.getLsbD_setWidth, getLsbD_extract _ zero]
    by_cases within : ctz mask + i < w'
    · simp [inside, within]
    · simp [BitVec.getLsbD_of_ge mask (ctz mask + i) (by omega)]

/-- Settles O4, which is `extract_setWidth`. -/
theorem extractionIsWidthIndependent : Obligations.ExtractionIsWidthIndependent :=
  fun _ _ word mask wider => extract_setWidth word mask wider

/-! ## Contiguous masks (R125) -/

/-- The set bits of the mask are exactly the `n` bits from `lo` on. -/
abbrev Selects {w : Nat} (mask : BitVec w) (lo n : Nat) : Prop :=
  ∀ j < w, mask.getLsbD j = (decide (lo ≤ j) && decide (j < lo + n))

section
variable {w : Nat} {mask : BitVec w} {lo n : Nat} (selects : Selects mask lo n) (pos : 0 < n) (inside : lo + n ≤ w)
include selects pos inside

theorem Selects.getLsbD_lo : mask.getLsbD lo = true := by simp [selects lo (by omega), pos]

theorem Selects.ne_zero : mask ≠ 0 := fun zero => by simpa [zero] using selects.getLsbD_lo pos inside

theorem Selects.ctz_eq_lo : ctz mask = lo :=
  ctz_eq (selects.getLsbD_lo pos inside) fun j below => by simp [selects j (by omega), below]

/-- A contiguous mask of `n` bits gives a value of at most `n` bits. -/
theorem Selects.extract_lt (word : BitVec w) : (extract word mask).toNat < 2 ^ n := by
  refine toNat_extract_lt word (selects.ne_zero pos inside) fun j above => ?_
  rw [selects.ctz_eq_lo pos inside] at above
  by_cases below : j < w
  · simp [selects j below, Nat.not_lt.mpr above]
  · exact BitVec.getLsbD_of_ge mask j (Nat.le_of_not_lt below)

/-- As a number, an extraction under a contiguous mask is the slice, at whatever width it is carried. -/
theorem Selects.toNat_extract (word : BitVec w) :
    (extract word mask).toNat = (word.extractLsb' lo n).toNat := by
  rw [← setWidth_extract_eq_slice word lo n pos inside selects, BitVec.toNat_setWidth,
    Nat.mod_eq_of_lt (selects.extract_lt pos inside word)]

end

/-- A status field is the slice that its 24-bit mask selects: carrying it at 64 bits adds nothing (R124). -/
theorem statusField_eq_slice (v : BitVec 24) {mask : BitVec 24} (lo n : Nat) (pos : 0 < n) (inside : lo + n ≤ 24)
    (selects : Selects mask lo n) : statusField v mask = v.extractLsb' lo n := by
  rw [statusField, extract_setWidth v mask (by decide),
    BitVec.setWidth_setWidth_of_le _ (by omega : n ≤ 64), setWidth_extract_eq_slice v lo n pos inside selects]

/-- The seven entry rows of R125's table. -/
theorem entryField_eq_bits (v : BitVec 64) :
    entryField v adcMask = bits 63 52 v ∧ entryField v timestampFpgaMask = bits 51 21 v ∧
    entryField v timestampAsicMask = bits 20 9 v ∧ entryField v channelIdMask = bits 8 4 v ∧
    entryField v asicIdMask = bits 3 2 v ∧ entryField v pileUpMask = bits 1 1 v ∧
    entryField v overflowMask = bits 0 0 v :=
  ⟨setWidth_extract_eq_slice v 52 12 (by decide) (by decide) (by decide),
    setWidth_extract_eq_slice v 21 31 (by decide) (by decide) (by decide),
    setWidth_extract_eq_slice v 9 12 (by decide) (by decide) (by decide),
    setWidth_extract_eq_slice v 4 5 (by decide) (by decide) (by decide),
    setWidth_extract_eq_slice v 2 2 (by decide) (by decide) (by decide),
    setWidth_extract_eq_slice v 1 1 (by decide) (by decide) (by decide),
    setWidth_extract_eq_slice v 0 1 (by decide) (by decide) (by decide)⟩

/-- Settles O5: a contiguous mask selects its slice; the table's masks are contiguous by computation on the literals. -/
theorem contiguousMaskExtractionIsTheSlice : Obligations.ContiguousMaskExtractionIsTheSlice := by
  refine ⟨?general, fun v => ?status, fun v => ?count, fun v => ?entry⟩
  case general =>
    intro w lo hi word mask ordered below bounds
    have pos : 0 < hi - lo + 1 := Nat.succ_pos _
    have inside : lo + (hi - lo + 1) ≤ w := by omega
    have selects : Selects mask lo (hi - lo + 1) := fun j _ => by
      have upper : j < lo + (hi - lo + 1) ↔ j ≤ hi := by omega
      simp only [bounds j, upper]
    have slice : (extract word mask).toNat = word.toNat / 2 ^ lo % 2 ^ (hi - lo + 1) := by
      rw [selects.toNat_extract pos inside, BitVec.extractLsb'_toNat, Nat.shiftRight_eq_div_pow]
    exact ⟨slice, selects.extract_lt pos inside word⟩
  case status =>
    exact ⟨statusField_eq_slice v 16 5 (by decide) (by decide) (by decide),
      statusField_eq_slice v 8 4 (by decide) (by decide) (by decide),
      statusField_eq_slice v 4 2 (by decide) (by decide) (by decide),
      statusField_eq_slice v 0 4 (by decide) (by decide) (by decide)⟩
  case count =>
    have selects : Selects dataCountMask 3 13 := by decide
    exact selects.toNat_extract (by decide) (by decide) v
  case entry => exact entryField_eq_bits v

/-! ## The fields and their containers (R128) -/

/-- A field of a data word, widened and shifted back, is the part of the word that its mask selects. -/
theorem entryField_shiftLeft (v : BitVec 64) {mask : BitVec 64} (lo n : Nat) (pos : 0 < n) (inside : lo + n ≤ 64)
    (selects : Selects mask lo n) : (entryField v mask : BitVec n).setWidth 64 <<< lo = v &&& mask := by
  have kept : (entryField v mask : BitVec n).setWidth 64 = extract v mask :=
    BitVec.eq_of_toNat_eq (by
      rw [entryField, BitVec.toNat_setWidth_of_le (by omega : n ≤ 64), BitVec.toNat_setWidth,
        Nat.mod_eq_of_lt (selects.extract_lt pos inside v)])
  rw [kept, ← extract_shiftLeft_ctz v (selects.ne_zero pos inside), selects.ctz_eq_lo pos inside]

/-- The seven fields of a data word, shifted back into place, make the word: the seven masks cover it (R91). -/
theorem union_entryFields (v : BitVec 64) :
    (entryField v adcMask : BitVec 12).setWidth 64 <<< 52 |||
      (entryField v timestampFpgaMask : BitVec 31).setWidth 64 <<< 21 |||
      (entryField v timestampAsicMask : BitVec 12).setWidth 64 <<< 9 |||
      (entryField v channelIdMask : BitVec 5).setWidth 64 <<< 4 |||
      (entryField v asicIdMask : BitVec 2).setWidth 64 <<< 2 |||
      (entryField v pileUpMask : BitVec 1).setWidth 64 <<< 1 |||
      (entryField v overflowMask : BitVec 1).setWidth 64 = v := by
  have cover : adcMask ||| timestampFpgaMask ||| timestampAsicMask ||| channelIdMask ||| asicIdMask ||| pileUpMask |||
      overflowMask = BitVec.allOnes 64 := by decide
  have lowest := entryField_shiftLeft v 0 1 (by decide) (by decide) (show Selects overflowMask 0 1 by decide)
  rw [BitVec.shiftLeft_zero] at lowest
  rw [entryField_shiftLeft v 52 12 (by decide) (by decide) (by decide),
    entryField_shiftLeft v 21 31 (by decide) (by decide) (by decide),
    entryField_shiftLeft v 9 12 (by decide) (by decide) (by decide),
    entryField_shiftLeft v 4 5 (by decide) (by decide) (by decide),
    entryField_shiftLeft v 2 2 (by decide) (by decide) (by decide),
    entryField_shiftLeft v 1 1 (by decide) (by decide) (by decide), lowest]
  simp only [← BitVec.and_or_distrib_left]
  rw [cover, BitVec.and_allOnes]

/-- The data word that a decoded entry came from: its seven stored fields, shifted into place. -/
def DataEntry.toWord (d : DataEntry) : BitVec 64 :=
  d.adc.setWidth 64 <<< 52 ||| d.timestampFpga.setWidth 64 <<< 21 ||| d.timestampAsic.setWidth 64 <<< 9 |||
    d.channelId.setWidth 64 <<< 4 ||| d.asicId.setWidth 64 <<< 2 ||| d.pileUp.setWidth 64 <<< 1 |||
    d.overflow.setWidth 64

/-- An entry's own word is the word it was decoded from. -/
theorem DataEntry.toWord_entryOf (v : BitVec 64) (i : Nat) : (entryOf v i).toWord = v := by
  obtain ⟨adc, timestampFpga, timestampAsic, channelId, asicId, pileUp, overflow⟩ := entryField_eq_bits v
  simpa only [toWord, entryOf, adc, timestampFpga, timestampAsic, channelId, asicId, pileUp, overflow]
    using union_entryFields v

/-- Settles O8: the union by `union_entryFields`, injectivity because `DataEntry.toWord` inverts `entryOf`; bit 6 of the
status and bit 0 of the raw count lie in no field. -/
theorem sevenFieldsPartitionTheDataWord : Obligations.SevenFieldsPartitionTheDataWord := by
  refine ⟨fun v => (union_entryFields v).symm, ?injective, ⟨0, 0x000040, by decide⟩, ⟨0, 1, by decide⟩⟩
  case injective =>
    intro v v' i same
    rw [← DataEntry.toWord_entryOf v i, same, DataEntry.toWord_entryOf]

end Sys2Proof.Machine

/-! PROOFS about the display transforms (`41_transforms.md` R144 to R146). Scale by four is multiplication on numbers. A
rendering is its digits and an ending: the digits alone carry the value, most significant first, and an ending begins
where they stop. -/

namespace Sys2Proof.Machine

/-! ## Scale by four (R144) -/

/-- 14 bits hold the product, so it is exact. -/
@[simp] theorem toNat_scale4 (v : BitVec 12) : (scale4 v).toNat = v.toNat * 4 := by
  have bound := v.isLt
  rw [scale4, BitVec.toNat_shiftLeft, BitVec.toNat_setWidth_of_le (by decide), Nat.shiftLeft_eq]
  omega

/-- Settles O12: each law is one of multiplication by four, by `toNat_scale4`. -/
theorem scaleByFourLaws : Obligations.ScaleByFourLaws := by
  intro v
  have bound := v.isLt
  simp only [toNat_scale4, true_and]
  refine ⟨by omega, by omega, by omega, ?range, ?injective, fun _ less => by omega⟩
  case range =>
    intro n multiple upper
    refine ⟨BitVec.ofNat 12 (n / 4), ?_⟩
    rw [BitVec.toNat_ofNat]
    omega
  case injective =>
    intro v' same
    have product := congrArg BitVec.toNat same
    simp only [toNat_scale4] at product
    exact BitVec.eq_of_toNat_eq (by omega)

/-! ## The bits that need printing (R12, R145) -/

/-- Where `bitlenBelow` finds a bit, that bit is set. -/
theorem getLsbD_bitlenBelow_sub_one {w : Nat} {v : BitVec w} {i : Nat} (found : 0 < bitlenBelow v i) :
    v.getLsbD (bitlenBelow v i - 1) = true := by
  induction i with
  | zero => simp [bitlenBelow] at found
  | succ i ih =>
    by_cases top : v.getLsbD i = true
    · simp [bitlenBelow, top]
    · simp only [bitlenBelow, top] at found ⊢
      exact ih found

theorem bitlen_pos {w : Nat} {v : BitVec w} (nonzero : v ≠ 0) : 0 < bitlen v := by
  refine Nat.pos_of_ne_zero fun none => nonzero (BitVec.eq_of_getLsbD_eq fun i _ => ?_)
  simpa using getLsbD_of_bitlen_le v (none ▸ Nat.zero_le i)

theorem getLsbD_bitlen_sub_one {w : Nat} {v : BitVec w} (nonzero : v ≠ 0) : v.getLsbD (bitlen v - 1) = true :=
  getLsbD_bitlenBelow_sub_one (bitlen_pos nonzero)

theorem bitsToPrint_of_ne_zero {w : Nat} {v : BitVec w} (nonzero : v ≠ 0) : bitsToPrint v = bitlen v :=
  if_neg nonzero

/-- The bits to print are enough for the value. -/
theorem toNat_lt_two_pow_bitsToPrint {w : Nat} (v : BitVec w) : v.toNat < 2 ^ bitsToPrint v := by
  by_cases zero : v = 0
  · simp [zero, bitsToPrint]
  · rw [bitsToPrint_of_ne_zero zero]
    exact Nat.lt_pow_two_of_testBit _ fun i above => getLsbD_of_bitlen_le v above

/-! ## The digits of a rendering -/

@[simp] theorem length_minbinDigits {w : Nat} (v : BitVec w) (d : Nat) : (minbinDigits v d).length = d := by
  simp [minbinDigits]

/-- Digit `k` is the bit `k` places below the most significant one printed. -/
theorem getElem?_minbinDigits {w : Nat} (v : BitVec w) {k d : Nat} (inside : k < d) :
    (minbinDigits v d)[k]? = some (if v.getLsbD (bitsToPrint v - 1 - k) then charOne else charZero) := by
  simp [minbinDigits, inside]

theorem minbinDigits_succ {w : Nat} (v : BitVec w) (d : Nat) :
    minbinDigits v (d + 1) =
      minbinDigits v d ++ [if v.getLsbD (bitsToPrint v - 1 - d) then charOne else charZero] := by
  simp [minbinDigits, List.range_succ]

theorem eq_charZero_or_charOne_of_mem_minbinDigits {w : Nat} {v : BitVec w} {d : Nat} {c : Byte}
    (digit : c ∈ minbinDigits v d) : c = charZero ∨ c = charOne := by
  obtain ⟨k, -, rfl⟩ := List.mem_map.mp digit
  by_cases set : v.getLsbD (bitsToPrint v - 1 - k) = true
  · exact .inr (if_pos set)
  · exact .inl (if_neg set)

theorem charTerm_notMem_minbinDigits {w : Nat} (v : BitVec w) (d : Nat) : charTerm ∉ minbinDigits v d := by
  intro digit
  rcases eq_charZero_or_charOne_of_mem_minbinDigits digit with zero | one
  · exact absurd zero (by decide)
  · exact absurd one (by decide)

/-- A non-zero value begins with the bit that `bitlen` points at (R146 (d)). -/
theorem head?_minbinDigits {w : Nat} {v : BitVec w} (nonzero : v ≠ 0) {d : Nat} (pos : 0 < d) :
    (minbinDigits v d).head? = some charOne := by
  rw [List.head?_eq_getElem?, getElem?_minbinDigits v pos, bitsToPrint_of_ne_zero nonzero, Nat.sub_zero,
    getLsbD_bitlen_sub_one nonzero, if_pos rfl]

/-- What a string of digits says as a binary numeral, most significant digit first. -/
def numeralOf (digits : List Byte) : Nat :=
  digits.foldl (fun acc c => 2 * acc + (if c = charOne then 1 else 0)) 0

theorem numeralOf_concat (digits : List Byte) (b : Bool) :
    numeralOf (digits ++ [if b then charOne else charZero]) = 2 * numeralOf digits + b.toNat := by
  cases b <;> simp [numeralOf, charOne, charZero]

/-- A number shifted right one place less has the next lower bit appended. -/
theorem shiftRight_eq_two_mul_add_testBit (x m : Nat) : x >>> m = 2 * (x >>> (m + 1)) + (x.testBit m).toNat := by
  rw [Nat.toNat_testBit, Nat.shiftRight_succ, Nat.shiftRight_eq_div_pow, Nat.div_add_mod]

/-- The first `d` digits say the value without its lower bits, by induction on `d`: the next digit is the next bit. -/
theorem numeralOf_minbinDigits {w : Nat} (v : BitVec w) {d : Nat} (printed : d ≤ bitsToPrint v) :
    numeralOf (minbinDigits v d) = v.toNat >>> (bitsToPrint v - d) := by
  induction d with
  | zero =>
    rw [Nat.sub_zero, Nat.shiftRight_eq_div_pow, Nat.div_eq_of_lt (toNat_lt_two_pow_bitsToPrint v)]
    rfl
  | succ d ih =>
    have next : bitsToPrint v - d = bitsToPrint v - (d + 1) + 1 := by omega
    have place : bitsToPrint v - 1 - d = bitsToPrint v - (d + 1) := by omega
    rw [minbinDigits_succ, numeralOf_concat, ih (by omega), place, next,
      shiftRight_eq_two_mul_add_testBit _ (bitsToPrint v - (d + 1)), BitVec.testBit_toNat]

/-- All the digits together say the value (R146 (e)). -/
theorem numeralOf_minbinDigits_bitsToPrint {w : Nat} (v : BitVec w) :
    numeralOf (minbinDigits v (bitsToPrint v)) = v.toNat := by
  rw [numeralOf_minbinDigits v le_rfl, Nat.sub_self, Nat.shiftRight_zero]

/-! ## The rendering: its digits and its ending (R145) -/

@[simp] theorem minbin_zero {w : Nat} (v : BitVec w) : minbin v 0 = [] := if_pos rfl

/-- With room for the marker, every digit is written; what is written does not mention `maxLen` (R146 (f)). -/
theorem minbin_of_room {w : Nat} {v : BitVec w} {maxLen : Nat} (room : bitsToPrint v + 2 ≤ maxLen) :
    minbin v maxLen = minbinDigits v (bitsToPrint v) ++ [charMarker, charTerm] := by
  have all : min (bitsToPrint v) (maxLen - 1) = bitsToPrint v := by omega
  rw [minbin, if_neg (by omega), all, if_pos room, List.append_assoc]
  rfl

/-- Without room for the marker, the digits fill what the terminator leaves. -/
theorem minbin_of_no_room {w : Nat} {v : BitVec w} {maxLen : Nat} (pos : 1 ≤ maxLen)
    (full : maxLen < bitsToPrint v + 2) : minbin v maxLen = minbinDigits v (maxLen - 1) ++ [charTerm] := by
  have cut : min (bitsToPrint v) (maxLen - 1) = maxLen - 1 := by omega
  rw [minbin, if_neg (by omega), cut, if_neg (by omega), List.append_nil]

/-- What stands before the terminator: the digits, and the marker or nothing. -/
theorem minbin_eq_concat {w : Nat} (v : BitVec w) {maxLen : Nat} (pos : 1 ≤ maxLen) :
    ∃ marker, (marker = [] ∨ marker = [charMarker]) ∧
      minbin v maxLen = minbinDigits v (min (bitsToPrint v) (maxLen - 1)) ++ marker ++ [charTerm] := by
  refine ⟨if bitsToPrint v + 2 ≤ maxLen then [charMarker] else [], ?_, if_neg (by omega)⟩
  by_cases room : bitsToPrint v + 2 ≤ maxLen
  · exact .inr (if_pos room)
  · exact .inl (if_neg room)

/-- The length of a rendering, never above `maxLen` (R146 (a)). -/
theorem length_minbin {w : Nat} (v : BitVec w) {maxLen : Nat} (pos : 1 ≤ maxLen) :
    (minbin v maxLen).length = min (bitsToPrint v + 2) maxLen := by
  by_cases room : bitsToPrint v + 2 ≤ maxLen
  · simp [minbin_of_room room, room]
  · have full := Nat.lt_of_not_le room
    rw [minbin_of_no_room pos full, List.length_append, length_minbinDigits, List.length_singleton]
    omega

theorem getLast?_minbin {w : Nat} (v : BitVec w) {maxLen : Nat} (pos : 1 ≤ maxLen) :
    (minbin v maxLen).getLast? = some charTerm := by
  obtain ⟨marker, -, written⟩ := minbin_eq_concat v pos
  rw [written, List.getLast?_concat]

theorem charTerm_notMem_dropLast_minbin {w : Nat} (v : BitVec w) {maxLen : Nat} (pos : 1 ≤ maxLen) :
    charTerm ∉ (minbin v maxLen).dropLast := by
  obtain ⟨marker, shape, written⟩ := minbin_eq_concat v pos
  have distinct : charTerm ≠ charMarker := by decide
  rw [written, List.dropLast_concat, List.mem_append, not_or]
  refine ⟨charTerm_notMem_minbinDigits v _, ?_⟩
  rcases shape with rfl | rfl
  · exact List.not_mem_nil
  · simpa using distinct

/-- The first `min n (maxLen - 1)` characters are the digits. -/
theorem take_minbin {w : Nat} (v : BitVec w) {maxLen : Nat} (pos : 1 ≤ maxLen) :
    (minbin v maxLen).take (min (bitsToPrint v) (maxLen - 1)) =
      minbinDigits v (min (bitsToPrint v) (maxLen - 1)) := by
  obtain ⟨marker, -, written⟩ := minbin_eq_concat v pos
  rw [written, List.append_assoc]
  exact List.take_left' (length_minbinDigits v _)

/-- With room for both, equal renderings have equal digits, which say equal values (R146 (e)). -/
theorem minbin_injective_of_room {w : Nat} {v v' : BitVec w} {maxLen : Nat} (room : bitsToPrint v + 2 ≤ maxLen)
    (room' : bitsToPrint v' + 2 ≤ maxLen) (same : minbin v' maxLen = minbin v maxLen) : v' = v := by
  rw [minbin_of_room room, minbin_of_room room'] at same
  have digits := congrArg numeralOf (List.append_cancel_right same)
  rw [numeralOf_minbinDigits_bitsToPrint, numeralOf_minbinDigits_bitsToPrint] at digits
  exact BitVec.eq_of_toNat_eq digits

/-- Settles O14: the length and the terminator by their lemmas, the digits by `take_minbin`, the marker from the shape of
a rendering with room. -/
theorem minimalBinaryStringWritesTheTopDigits : Obligations.MinimalBinaryStringWritesTheTopDigits := by
  refine fun w v maxLen => ⟨rfl, ?empty, fun pos => ⟨length_minbin v pos, ?digits, ?marker, getLast?_minbin v pos⟩⟩
  case empty => rintro rfl; exact minbin_zero v
  case digits =>
    intro k inside
    rw [← List.getElem?_take_of_lt inside, take_minbin v pos, getElem?_minbinDigits v inside]
  case marker =>
    intro room
    rw [minbin_of_room room, List.getElem?_append_right (length_minbinDigits v _).le, length_minbinDigits, Nat.sub_self]
    rfl

/-- Settles O13: (a) to (d) by the lemma for each law; with room, (e) and (f) from the rendering's shape. -/
theorem minimalBinaryStringLaws : Obligations.MinimalBinaryStringLaws := by
  intro w v maxLen pos out n d
  have digits : out.take d = minbinDigits v d := take_minbin v pos
  refine ⟨length_minbin v pos, getLast?_minbin v pos, charTerm_notMem_dropLast_minbin v pos, ?binary, ?leading, ?room⟩
  case binary => exact fun c digit => eq_charZero_or_charOne_of_mem_minbinDigits (digits ▸ digit)
  case leading =>
    intro nonzero printed
    have first : (out.take d).head? = out.head? := List.head?_take.trans (if_neg (by omega))
    rw [← first, digits, head?_minbinDigits nonzero printed]
  case room =>
    intro room
    have written : out = minbinDigits v n ++ [charMarker, charTerm] := minbin_of_room room
    have all : out.take n = minbinDigits v n := written ▸ List.take_left' (length_minbinDigits v n)
    exact ⟨by rw [all, written], all ▸ numeralOf_minbinDigits_bitsToPrint v,
      fun v' room' => minbin_injective_of_room room room',
      fun maxLen' room' => (minbin_of_room room').trans written.symm⟩

end Sys2Proof.Machine

/-! PROOFS about the Frame Decoder's function (`45_frame.md` R210 and R220). What `DECODE` answers when it answers a
packet is said once; the invariants of a committed result are then read off that packet. -/

namespace Sys2Proof.Machine

/-- The packet R210 makes of a buffer that passes both of its checks. -/
def packetOf (c : Config.StrMaxlen) (m : Memory) : Packet where
  packetNo    := m.le 0 8 64
  status      := statusOf (m.le 13 3 24)
  clkStateStr := clkStateText c (statusOf (m.le 13 3 24)).clkState
  entries     := (List.range (countOf m).toNat).map fun i => entryOf (m.le (16 + 8 * i) 8 64) i
  dataCount   := countOf m

/-- `DECODE` answers a packet exactly when the length and the count pass, and then it is `packetOf`. -/
theorem decodeFrame_eq_ok_iff {c : Config.StrMaxlen} {m : Memory} {p : Packet} :
    decodeFrame c m = .ok p ↔
      m.len = Config.packetSize ∧ (countOf m).toNat ≤ Config.maxData ∧ packetOf c m = p := by
  unfold decodeFrame
  split
  case isTrue len => simp [len]
  case isFalse len =>
    split
    case isTrue count => simp [Nat.not_le.mpr count]
    case isFalse count => simp [not_not.mp len, Nat.not_lt.mp count, packetOf]

/-- A packet has as many entries as its count says. -/
@[simp] theorem length_packetOf_entries (c : Config.StrMaxlen) (m : Memory) :
    (packetOf c m).entries.length = (countOf m).toNat := by simp [packetOf]

/-- The entry at a position is the one R210 makes of that position's data word. -/
theorem getElem_packetOf_entries {c : Config.StrMaxlen} {m : Memory} {k : Nat}
    (inside : k < (packetOf c m).entries.length) :
    (packetOf c m).entries[k] = entryOf (m.le (16 + 8 * k) 8 64) k := by simp [packetOf]

/-- Eight bits hold every position below 256, so such an entry's label is its position. -/
theorem toNat_entryOf_index (v : BitVec 64) {k : Nat} (small : k < 2 ^ 8) : (entryOf v k).index.toNat = k :=
  Nat.mod_eq_of_lt small

/-- 14 bits hold four times a 12-bit timestamp, so the display value is exact. -/
theorem toNat_entryOf_timestampAsicDisp (v : BitVec 64) (k : Nat) :
    (entryOf v k).timestampAsicDisp.toNat = 4 * (entryOf v k).timestampAsic.toNat := by
  have bound := (entryOf v k).timestampAsic.isLt
  calc (entryOf v k).timestampAsicDisp.toNat
    _ = (entryOf v k).timestampAsic.toNat * 4 := Nat.mod_eq_of_lt (by omega)
    _ = 4 * (entryOf v k).timestampAsic.toNat := Nat.mul_comm _ _

/-- Settles O41: `DECODE`'s packet is `packetOf` with a count that passed, so every position fits an entry's label. -/
theorem decodedPacketsAreGood : Obligations.DecodedPacketsAreGood := by
  intro c m p decoded
  obtain ⟨-, count, rfl⟩ := decodeFrame_eq_ok_iff.mp decoded
  refine ⟨count, length_packetOf_entries c m, fun k inside => ?entry, rfl⟩
  have small : k < 2 ^ 8 := by
    rw [length_packetOf_entries] at inside
    exact (inside.trans_le count).trans (by decide)
  rw [getElem_packetOf_entries inside]
  exact ⟨toNat_entryOf_index _ small, toNat_entryOf_timestampAsicDisp _ k⟩

end Sys2Proof.Machine

/-! PROOFS about the words of the operation port (log entry 1). An operand written and read back is itself, and bytes
that read as an operand are the ones that write it; each direction for whole operations follows row by row. -/

namespace Sys2Proof

/-! ## Operands -/

/-- A number that fits a word is the word's number. -/
theorem toNat_ofNat_of_lt {w n : Nat} (fits : n < 2 ^ w) : (BitVec.ofNat w n).toNat = n :=
  Nat.mod_eq_of_lt fits

/-- A number that fits its bytes is read back, and the bytes after it are left. -/
theorem takeLE_leBytes_append {n v : Nat} (fits : v < 256 ^ n) (rest : List Byte) :
    takeLE n (leBytes n v ++ rest) = some (v, rest) := by
  induction n generalizing v with
  | zero =>
    obtain rfl : v = 0 := by simpa using fits
    rfl
  | succ n ih =>
    have high : v / 256 < 256 ^ n := Nat.div_lt_of_lt_mul (by rwa [Nat.pow_succ'] at fits)
    simp [takeLE, leBytes, ih high, Nat.mod_add_div]

/-- Bytes that read as a number are the ones that write it. -/
theorem takeLE_eq_some {n v : Nat} {bs rest : List Byte} (taken : takeLE n bs = some (v, rest)) :
    v < 256 ^ n ∧ bs = leBytes n v ++ rest := by
  induction n generalizing bs v with
  | zero =>
    obtain ⟨rfl, rfl⟩ : 0 = v ∧ bs = rest := by simpa [takeLE] using taken
    exact ⟨Nat.one_pos, rfl⟩
  | succ n ih =>
    cases bs with
    | nil => simp [takeLE] at taken
    | cons b bs =>
      obtain ⟨high, inner, rfl⟩ : ∃ high, takeLE n bs = some (high, rest) ∧ b.toNat + 256 * high = v := by
        simpa [takeLE] using taken
      obtain ⟨fits, rfl⟩ := ih inner
      have byte := b.isLt
      have low : BitVec.ofNat 8 (b.toNat + 256 * high) = b := BitVec.eq_of_toNat_eq (by simp; omega)
      have upper : (b.toNat + 256 * high) / 256 = high := by omega
      refine ⟨by rw [Nat.pow_succ']; omega, ?_⟩
      rw [leBytes, low, upper, List.cons_append]

/-- An operand that fits is handed on. -/
theorem operand_leBytes_append {n v : Nat} (fits : v < 256 ^ n) (rest : List Byte)
    (k : Nat → List Byte → Decoded) : operand n (leBytes n v ++ rest) k = k v rest := by
  rw [operand, takeLE_leBytes_append fits]

/-- What goes on after an operand was written with that operand first. -/
theorem operand_eq_ok {n : Nat} {bs : List Byte} {k : Nat → List Byte → Decoded} {r : Instr × List Byte}
    (read : operand n bs k = .ok r) :
    ∃ v rest, v < 256 ^ n ∧ bs = leBytes n v ++ rest ∧ k v rest = .ok r := by
  unfold operand at read
  split at read
  · cases read
  · next v rest taken =>
    obtain ⟨fits, written⟩ := takeLE_eq_some taken
    exact ⟨v, rest, fits, written, read⟩

/-! ## Decoding what was encoded -/

/-- `word` and `mask` of the extractor are read back. -/
theorem decodeExtractor_leBytes {n word mask : Nat} (make : Nat → Nat → Instr) (wordFits : word < 256 ^ n)
    (maskFits : mask < 256 ^ n) (rest : List Byte) :
    decodeExtractor n make (leBytes n word ++ leBytes n mask ++ rest) = .ok (make word mask, rest) := by
  rw [List.append_assoc, decodeExtractor, operand_leBytes_append wordFits, operand_leBytes_append maskFits]

/-- `XF.ID`'s width and value are read back where the width is one of 1 to 64. -/
theorem decodeIdentity_leBytes {width : Nat} (v : BitVec width) (legal : identityWidthOk width = true)
    (rest : List Byte) :
    decodeIdentity (leBytes 1 width ++ leBytes 8 v.toNat ++ rest) = .ok (.xfId width v, rest) := by
  have bounds : 1 ≤ width ∧ width ≤ 64 := by simpa [identityWidthOk] using legal
  have valueFits : v.toNat < 256 ^ 8 :=
    v.isLt.trans_le (Nat.pow_le_pow_right (by decide) bounds.2 : 2 ^ width ≤ 2 ^ 64)
  rw [List.append_assoc, decodeIdentity, operand_leBytes_append (by omega), if_pos legal,
    operand_leBytes_append valueFits, if_pos v.isLt, BitVec.ofNat_toNat, BitVec.setWidth_eq]

theorem decodeScale4_operandBytes (arg : Scale4Arg) (rest : List Byte) :
    decodeScale4 (operandBytes (.xfScale4 arg) ++ rest) = .ok (.xfScale4 arg, rest) := by
  cases arg with
  | entry => rfl
  | value v =>
    have bound : v.toNat < 2 ^ 12 := v.isLt
    rw [operandBytes, List.append_assoc, decodeScale4, operand_leBytes_append (by decide)]
    simp only
    rw [operand_leBytes_append (by omega), if_pos bound, BitVec.ofNat_toNat, BitVec.setWidth_eq]

theorem decodeMinbin_operandBytes (arg : MinbinArg) (legal : (Instr.xfMinbin arg).wellFormed = true)
    (rest : List Byte) : decodeMinbin (operandBytes (.xfMinbin arg) ++ rest) = .ok (.xfMinbin arg, rest) := by
  cases arg with
  | clkState => rfl
  | u32 v maxLen | u64 v maxLen =>
    have lenFits : maxLen < 2 ^ 64 := of_decide_eq_true legal
    rw [operandBytes, List.append_assoc, List.append_assoc, decodeMinbin, operand_leBytes_append (by decide)]
    simp only
    rw [operand_leBytes_append v.isLt, operand_leBytes_append lenFits, BitVec.ofNat_toNat, BitVec.setWidth_eq]

/-- Every selector picks its row, which reads its own operands back. -/
theorem decodeAs_selector (i : Instr) (legal : i.wellFormed = true) (rest : List Byte) :
    decodeAs (selector i) (operandBytes i ++ rest) = .ok (i, rest) := by
  cases i
  case bfx64 word mask =>
    refine (decodeExtractor_leBytes _ word.isLt mask.isLt rest).trans ?_
    simp
  case bfx32 word mask =>
    refine (decodeExtractor_leBytes _ word.isLt mask.isLt rest).trans ?_
    simp
  case bfx16 word mask =>
    refine (decodeExtractor_leBytes _ word.isLt mask.isLt rest).trans ?_
    simp
  case xfId width v => exact decodeIdentity_leBytes v legal rest
  case xfScale4 arg => exact decodeScale4_operandBytes arg rest
  case xfMinbin arg => exact decodeMinbin_operandBytes arg legal rest
  all_goals rfl

theorem selector_lt (i : Instr) : selector i < 2 ^ 8 := by
  cases i <;> simp [selector]

/-- Settles O58: the selector byte is the operation's row, and that row reads the operands back. -/
theorem decodeOfEncodeIsTheOperation : Obligations.DecodeOfEncodeIsTheOperation := by
  intro i rest legal
  have byte : (BitVec.ofNat 8 (selector i)).toNat = selector i := toNat_ofNat_of_lt (selector_lt i)
  rw [encode, List.cons_append, decode, byte, decodeAs_selector i legal rest]

/-! ## What decodes was encoded -/

/-- The bytes `bs` are the operands of a well-formed operation, with what is left after it. -/
def WrittenBy (bs : List Byte) (r : Instr × List Byte) : Prop :=
  r.1.wellFormed = true ∧ bs = operandBytes r.1 ++ r.2

theorem decodeExtractor_eq_ok {n : Nat} {make : Nat → Nat → Instr} {bs : List Byte} {r : Instr × List Byte}
    (read : decodeExtractor n make bs = .ok r) :
    ∃ word mask rest, word < 256 ^ n ∧ mask < 256 ^ n ∧ bs = leBytes n word ++ leBytes n mask ++ rest ∧
      r = (make word mask, rest) := by
  obtain ⟨word, _, wordFits, rfl, afterWord⟩ := operand_eq_ok read
  obtain ⟨mask, rest, maskFits, rfl, afterMask⟩ := operand_eq_ok afterWord
  cases afterMask
  exact ⟨word, mask, rest, wordFits, maskFits, (List.append_assoc ..).symm, rfl⟩

theorem decodeIdentity_eq_ok {bs : List Byte} {r : Instr × List Byte} (read : decodeIdentity bs = .ok r) :
    (∃ width v, r.1 = .xfId width v) ∧ WrittenBy bs r := by
  obtain ⟨width, _, -, rfl, afterWidth⟩ := operand_eq_ok read
  split at afterWidth
  case isFalse => cases afterWidth
  case isTrue legal =>
    obtain ⟨v, rest, -, rfl, afterValue⟩ := operand_eq_ok afterWidth
    split at afterValue
    case isFalse => cases afterValue
    case isTrue narrow =>
      cases afterValue
      exact ⟨⟨width, _, rfl⟩, legal, by rw [operandBytes, toNat_ofNat_of_lt narrow, List.append_assoc]⟩

theorem decodeScale4_eq_ok {bs : List Byte} {r : Instr × List Byte} (read : decodeScale4 bs = .ok r) :
    (∃ arg, r.1 = .xfScale4 arg) ∧ WrittenBy bs r := by
  obtain ⟨form, _, -, rfl, afterForm⟩ := operand_eq_ok read
  split at afterForm
  next =>
    obtain ⟨v, rest, -, rfl, afterValue⟩ := operand_eq_ok afterForm
    split at afterValue
    case isFalse => cases afterValue
    case isTrue narrow =>
      cases afterValue
      exact ⟨⟨_, rfl⟩, rfl, by rw [operandBytes, toNat_ofNat_of_lt narrow, List.append_assoc]⟩
  next => cases afterForm; exact ⟨⟨_, rfl⟩, rfl, rfl⟩
  next => cases afterForm

theorem decodeMinbin_eq_ok {bs : List Byte} {r : Instr × List Byte} (read : decodeMinbin bs = .ok r) :
    (∃ arg, r.1 = .xfMinbin arg) ∧ WrittenBy bs r := by
  obtain ⟨form, _, -, rfl, afterForm⟩ := operand_eq_ok read
  split at afterForm
  iterate 2
    next =>
      obtain ⟨v, _, valueFits, rfl, afterValue⟩ := operand_eq_ok afterForm
      obtain ⟨maxLen, rest, lenFits, rfl, afterLen⟩ := operand_eq_ok afterValue
      cases afterLen
      refine ⟨⟨_, rfl⟩, decide_eq_true lenFits, ?_⟩
      rw [operandBytes, toNat_ofNat_of_lt valueFits, List.append_assoc, List.append_assoc]
  next => cases afterForm; exact ⟨⟨_, rfl⟩, rfl, rfl⟩
  next => cases afterForm

/-- A row that reads its operands is the row of the operation it answers. -/
theorem decodeAs_eq_ok {code : Nat} {bs : List Byte} {r : Instr × List Byte} (read : decodeAs code bs = .ok r) :
    selector r.1 = code ∧ WrittenBy bs r := by
  unfold decodeAs at read
  split at read
  iterate 3
    next =>
      obtain ⟨word, mask, rest, wordFits, maskFits, rfl, rfl⟩ := decodeExtractor_eq_ok read
      refine ⟨rfl, rfl, ?_⟩
      rw [operandBytes, toNat_ofNat_of_lt wordFits, toNat_ofNat_of_lt maskFits]
  next =>
    obtain ⟨⟨_, _, row⟩, written⟩ := decodeIdentity_eq_ok read
    exact ⟨by rw [row, selector], written⟩
  next =>
    obtain ⟨⟨_, row⟩, written⟩ := decodeScale4_eq_ok read
    exact ⟨by rw [row, selector], written⟩
  next =>
    obtain ⟨⟨_, row⟩, written⟩ := decodeMinbin_eq_ok read
    exact ⟨by rw [row, selector], written⟩
  iterate 24
    next => cases read; exact ⟨rfl, rfl, rfl⟩
  next => cases read

/-- Settles O59: the first byte is the selector of the row that read the others. -/
theorem decodedBytesAreTheOperationsWords : Obligations.DecodedBytesAreTheOperationsWords := by
  intro bs rest i read
  cases bs with
  | nil => cases read
  | cons code bs =>
    obtain ⟨row, legal, rfl⟩ := decodeAs_eq_ok read
    refine ⟨legal, ?_⟩
    rw [encode, show selector i = code.toNat from row, BitVec.ofNat_toNat, BitVec.setWidth_eq, List.cons_append]

/-- Settles O60: each word is decoded by computation. -/
theorem sampleWordsDecode : Obligations.SampleWordsDecode :=
  ⟨rfl, rfl, rfl, rfl, rfl, rfl, rfl, rfl, rfl, rfl, rfl, rfl, rfl⟩

end Sys2Proof

/-! PROOFS about the operations one by one (`40_extractor.md` to `46_summary.md`). Each operation is said once, for
every state: a load goes on or stops, a slot write goes on or stops, everything else completes; `DEC.HDR` and
`DEC.ENTRY` are one load (or two) and one write. The statements about completion, about stops and about frames are read
off these. -/

namespace Sys2Proof.Machine

/-! ## Shared operations -/

/-- A place that holds a value reads as it. -/
theorem valueOr_of_eq {w : Nat} {held : Option (BitVec w)} {v : BitVec w} {epoch : Nat} {p : Config.Place}
    (holds : held = some v) : valueOr held epoch p = v := by rw [holds, valueOr_some]

@[simp] theorem withRegs_idxValue (s : State) (r : Regs) : (s.withRegs r).idxValue = s.idxValue := rfl

@[simp] theorem withSlot_idxValue (s : State) (k : Fin Config.maxData) (e : EntrySlot) :
    (s.withSlot k e).idxValue = s.idxValue := rfl

@[simp] theorem withSlot_wordValue (s : State) (k : Fin Config.maxData) (e : EntrySlot) :
    (s.withSlot k e).wordValue = s.wordValue := rfl

/-- What follows a load follows its value. -/
theorem andThen_load (s : State) (off n w : Nat) (k : BitVec w → Result) (next : State → Result) :
    andThen (load s off n w k) next = load s off n w fun v => andThen (k v) next := by
  unfold load
  split <;> rfl

/-- A load reads the frame, which no register is part of. -/
theorem load_withRegs (s : State) (r : Regs) (off n w : Nat) (k : BitVec w → Result) :
    load (s.withRegs r) off n w k = load s off n w k := rfl

/-- A slot write followed by a write of the same slot is one write. -/
theorem writeSlot_again {s : State} {k : Nat} (inside : k < Config.maxData) (e : EntrySlot)
    (f : EntrySlot → EntrySlot) :
    writeSlot (s.withSlot ⟨k, inside⟩ e) k f = .next (s.withSlot ⟨k, inside⟩ (f e)) :=
  writeSlot_withSlot s ⟨k, inside⟩ e f

/-- A write of the slot that `idx` names, where there is one. -/
theorem writeSlot_idx {s : State} {i : BitVec 8} (held : s.idx = some i) (inside : i.toNat < Config.maxData)
    (f : EntrySlot → EntrySlot) :
    writeSlot s s.idxValue.toNat f = .next { s with ent := s.ent.set i.toNat (f s.ent[i.toNat]) } := by
  rw [idxValue_of_some held, writeSlot_of_lt inside]
  rfl

/-! ## Extractor and transforms (R121 to R123, R141, R143, R145) -/

/-- Settles O3: each operation is its extraction handed back, by definition. -/
theorem extractorOperationsHandBackTheExtraction : Obligations.ExtractorOperationsHandBackTheExtraction :=
  fun _ => ⟨fun _ _ => rfl, fun _ _ => rfl, fun _ _ => rfl⟩

/-- Settles O10: the operation hands its operand back, by definition. -/
theorem identityHandsBackItsOperand : Obligations.IdentityHandsBackItsOperand := fun _ _ _ => rfl

/-- Settles O15: the rendering of `r.clk_state` is `minbin` at the build's parameter, by definition. -/
theorem minimalBinaryStringOperationCompletes : Obligations.MinimalBinaryStringOperationCompletes :=
  fun _ => ⟨fun _ _ => rfl, fun _ _ => rfl, rfl⟩

/-- Settles O11: the value is `scale4`'s in both forms; the register form is a write of the slot that `idx` names. -/
theorem scaleByFourCompletes : Obligations.ScaleByFourCompletes := by
  refine ⟨fun s v => ⟨scale4 v, toNat_scale4 v, rfl⟩, fun s i inside v held stored => ⟨scale4 v, toNat_scale4 v, ?_⟩⟩
  have scaled : scaleSlot s.ent[i.toNat] s.epoch s.idxValue.toNat =
      { s.ent[i.toNat] with timestampAsicDisp := some (scale4 v) } := by simp [scaleSlot, stored]
  rw [← scaled]
  exact writeSlot_idx held inside fun e => scaleSlot e s.epoch s.idxValue.toNat

/-! ## Header (R160 to R170) -/

/-- The four status rows of R125's table. -/
theorem statusField_eq_bits (v : BitVec 24) :
    statusField v clkStateMask = bits 20 16 v ∧ statusField v i2cStatusMask = bits 11 8 v ∧
    statusField v adcClkSelMask = bits 5 4 v ∧ statusField v asicEnableStatusMask = bits 3 0 v := by
  obtain ⟨-, status, -⟩ := contiguousMaskExtractionIsTheSlice
  exact status v

/-- Settles O23: the masks select their slices. -/
theorem statusExtractionsTakeTheirBits : Obligations.StatusExtractionsTakeTheirBits := by
  intro s
  obtain ⟨clkState, i2cStatus, adcClkSel, asicEnableStatus⟩ := statusField_eq_bits s.status24Value
  rw [← clkState, ← i2cStatus, ← adcClkSel, ← asicEnableStatus]
  exact ⟨rfl, rfl, rfl, rfl, fun _ => valueOr_of_eq⟩

/-- Settles O24, by definition. -/
theorem headerDecodeIsItsSequence : Obligations.HeaderDecodeIsItsSequence := fun _ => rfl

/-- The working registers after `DEC.HDR` has read a packet number and a status. -/
def State.headerRegs (s : State) (packetNo : BitVec 64) (status24 : BitVec 24) : Regs :=
  { s.regs with
    packetNo         := some packetNo
    status24         := some status24
    clkState         := some (statusOf status24).clkState
    i2cStatus        := some (statusOf status24).i2cStatus
    adcClkSel        := some (statusOf status24).adcClkSel
    asicEnableStatus := some (statusOf status24).asicEnableStatus
    clkStateStr      := some (clkStateText s.clkStrMaxlen (statusOf status24).clkState) }

/-- The four extractions and the rendering are one write of five registers. -/
theorem headerExtractions_eq (s : State) :
    (andThen (execExClkState s) fun s => andThen (execExI2cStatus s) fun s => andThen (execExAdcClkSel s) fun s =>
      andThen (execExAsicEn s) fun s => execXfMinbin .clkState s) =
    .next (s.withRegs { s.regs with
      clkState := some (statusOf s.status24Value).clkState
      i2cStatus := some (statusOf s.status24Value).i2cStatus
      adcClkSel := some (statusOf s.status24Value).adcClkSel
      asicEnableStatus := some (statusOf s.status24Value).asicEnableStatus
      clkStateStr := some (clkStateText s.clkStrMaxlen (statusOf s.status24Value).clkState) }) := by
  obtain ⟨clkState, i2cStatus, adcClkSel, asicEnableStatus⟩ := statusField_eq_bits s.status24Value
  simp only [statusOf, ← clkState, ← i2cStatus, ← adcClkSel, ← asicEnableStatus]
  rfl

/-- `DEC.HDR` is its two loads and one write of the seven header registers. -/
theorem execDecHdr_eq (s : State) :
    execDecHdr s = load s 0 8 64 fun packetNo => load s 13 3 24 fun status24 =>
      .next (s.withRegs (s.headerRegs packetNo status24)) := by
  unfold execDecHdr execLdPktno
  rw [andThen_load]
  refine congrArg (load s 0 8 64) (funext fun packetNo => ?_)
  rw [andThen_next, execLdStatus, andThen_load, load_withRegs]
  refine congrArg (load s 13 3 24) (funext fun status24 => ?_)
  rw [andThen_next]
  exact headerExtractions_eq _

/-- `DEC.HDR` on a buffer that has the header. -/
theorem execDecHdr_of_le {s : State} (header : 16 ≤ s.frame.len) :
    execDecHdr s = .next (s.withRegs (s.headerRegs (s.frame.le 0 8 64) (s.frame.le 13 3 24))) := by
  rw [execDecHdr_eq, load_of_le (by omega), load_of_le header]
  rfl

theorem execDecHdr_eq_next {s t : State} (done : execDecHdr s = .next t) :
    t = s.withRegs (s.headerRegs (s.frame.le 0 8 64) (s.frame.le 13 3 24)) := by
  rw [execDecHdr_eq] at done
  obtain ⟨-, done⟩ := load_eq_next done
  obtain ⟨-, done⟩ := load_eq_next done
  cases done
  rfl

/-! ## Count (R180 to R184) -/

/-- The count's mask is the 13 bits from bit 3 on. -/
theorem extract_dataCountMask (v : BitVec 16) : extract v dataCountMask = v >>> 3 := by
  have selects : Selects dataCountMask 3 13 := by decide
  have bound := v.isLt
  apply BitVec.eq_of_toNat_eq
  rw [selects.toNat_extract (by decide) (by decide), BitVec.extractLsb'_toNat, BitVec.toNat_ushiftRight,
    Nat.shiftRight_eq_div_pow]
  omega

/-- Settles O26: the extraction is `extract_dataCountMask`; 13 bits hold at most 8191. -/
theorem countExtractionShiftsByThree : Obligations.CountExtractionShiftsByThree := by
  intro s
  have bound := s.countRawValue.isLt
  refine ⟨?completes, ?atMost, fun _ => valueOr_of_eq⟩
  case completes => rw [← extract_dataCountMask]; rfl
  case atMost => rw [BitVec.toNat_ushiftRight, Nat.shiftRight_eq_div_pow]; omega

theorem execChkCount_of_le {s : State} (passes : s.dataCountValue.toNat ≤ 180) :
    execChkCount s = .next ((s.withIdx 0).withPhase .ent) := if_neg (Nat.not_lt.mpr passes)

theorem execChkCount_of_gt {s : State} (fails : 180 < s.dataCountValue.toNat) :
    execChkCount s = .next (s.raise .malformedCount) := if_pos fails

/-- Settles O27: the two branches of `CHK.COUNT`; 0x05A8 is eight times 181. -/
theorem countCheckRejectsAbove180 : Obligations.CountCheckRejectsAbove180 := by
  refine ⟨fun _ => execChkCount_of_le, fun _ => execChkCount_of_gt, fun raw => ?_, fun _ _ => valueOr_of_eq⟩
  rw [BitVec.toNat_ushiftRight, Nat.shiftRight_eq_div_pow]
  omega

/-- Settles O20: inside the buffer a load goes on with the little-endian value at its offset. -/
theorem loadsReadTheirOffsets : Obligations.LoadsReadTheirOffsets := by
  refine fun s => ⟨fun inside => ?pktno, fun inside => ?status, fun inside => ?count, fun i held inside => ?entry⟩
  case pktno => exact load_of_le (k := fun v => .next (s.withRegs { s.regs with packetNo := some v })) inside
  case status => exact load_of_le (k := fun v => .next (s.withRegs { s.regs with status24 := some v })) inside
  case count => exact load_of_le (k := fun v => .next (s.withRegs { s.regs with countRaw := some v })) inside
  case entry =>
    rw [exec, execLdEntry, idxValue_of_some held]
    exact load_of_le (by rw [offSlot]; omega)

/-! ## Data entries (R190 to R200) -/

/-- 14 bits hold the product. -/
theorem scale4_eq_ofNat (v : BitVec 12) : scale4 v = BitVec.ofNat 14 (v.toNat * 4) := by
  apply BitVec.eq_of_toNat_eq
  rw [toNat_scale4, toNat_ofNat_of_lt (by have := v.isLt; omega)]

/-- `EX.TS_ASIC` is one write of the slot: the display value is the value just written times four. -/
theorem execExTsAsic_eq (s : State) :
    execExTsAsic s = writeSlot s s.idxValue.toNat fun e => { e with
      timestampAsic := some (bits 20 9 s.wordValue),
      timestampAsicDisp := some (BitVec.ofNat 14 ((bits 20 9 s.wordValue).toNat * 4)) } := by
  obtain ⟨-, -, timestampAsic, -⟩ := entryField_eq_bits s.wordValue
  unfold execExTsAsic
  rcases Nat.lt_or_ge s.idxValue.toNat Config.maxData with inside | outside
  · rw [writeSlot_of_lt inside, andThen_next, execXfScale4, withSlot_idxValue, writeSlot_again inside,
      writeSlot_of_lt inside, timestampAsic, ← scale4_eq_ofNat]
    rfl
  · rw [writeSlot_of_ge outside, writeSlot_of_ge outside, andThen_fault]

/-- What an operation on one entry slot makes of slot `k`, with `v` in `r.word` (R192 to R198; R194 for `XF.SCALE4`'s
register form). -/
def slotWrite (v : BitVec 64) (epoch k : Nat) : Instr → EntrySlot → EntrySlot
  | .exAdc, e => { e with adc := some (bits 63 52 v) }
  | .exTsFpga, e => { e with timestampFpga := some (bits 51 21 v) }
  | .exTsAsic, e => { e with
      timestampAsic := some (bits 20 9 v)
      timestampAsicDisp := some (BitVec.ofNat 14 ((bits 20 9 v).toNat * 4)) }
  | .exChannelId, e => { e with channelId := some (bits 8 4 v) }
  | .exAsicId, e => { e with asicId := some (bits 3 2 v) }
  | .exPileUp, e => { e with pileUp := some (bits 1 1 v) }
  | .exOverflow, e => { e with overflow := some (bits 0 0 v) }
  | .xfScale4 .entry, e => scaleSlot e epoch k
  | _, e => e

/-- The operations that write the slot `idx` names and nothing else. -/
def slotOperations : List Instr :=
  [.exAdc, .exTsFpga, .exTsAsic, .exChannelId, .exAsicId, .exPileUp, .exOverflow, .xfScale4 .entry]

/-- Each of them is one write of that slot. -/
theorem exec_slotOperation (s : State) {op : Instr} (listed : op ∈ slotOperations) :
    exec op s = writeSlot s s.idxValue.toNat (slotWrite s.wordValue s.epoch s.idxValue.toNat op) := by
  obtain ⟨adc, timestampFpga, -, channelId, asicId, pileUp, overflow⟩ := entryField_eq_bits s.wordValue
  simp only [slotOperations, List.mem_cons, List.not_mem_nil, or_false] at listed
  rcases listed with rfl | rfl | rfl | rfl | rfl | rfl | rfl | rfl
  case inr.inr.inl => exact execExTsAsic_eq s
  all_goals
    unfold slotWrite
    simp only [← adc, ← timestampFpga, ← channelId, ← asicId, ← pileUp, ← overflow]
    rfl

/-- Settles O29: each extraction is one write of the slot that `idx` names. -/
theorem entryExtractionsTakeTheirBits : Obligations.EntryExtractionsTakeTheirBits := by
  intro s i inside held e w
  have completes (op : Instr) (listed : op ∈ slotOperations) :
      exec op s = .next { s with ent := s.ent.set i.toNat (slotWrite w s.epoch s.idxValue.toNat op e) } :=
    (exec_slotOperation s listed).trans (writeSlot_idx held inside _)
  exact ⟨completes .exAdc (by decide), completes .exTsFpga (by decide), completes .exTsAsic (by decide),
    completes .exChannelId (by decide), completes .exAsicId (by decide), completes .exPileUp (by decide),
    completes .exOverflow (by decide), fun _ => valueOr_of_eq⟩

/-- R200's sequence. -/
theorem execDecEntry_sequence (s : State) : execDecEntry s =
    andThen (exec .ldEntry s) fun s => andThen (exec .exAdc s) fun s => andThen (exec .exTsFpga s) fun s =>
    andThen (exec .exTsAsic s) fun s => andThen (exec .exChannelId s) fun s => andThen (exec .exAsicId s) fun s =>
    andThen (exec .exPileUp s) fun s => andThen (exec .exOverflow s) fun s =>
    writeSlot s s.idxValue.toNat fun e => { e with index := some s.idxValue } := rfl

/-- `DEC.ENTRY` is one load and one write of the whole slot. -/
theorem execDecEntry_eq (s : State) :
    execDecEntry s = load s (16 + 8 * s.idxValue.toNat) 8 64 fun v =>
      writeSlot (s.withRegs { s.regs with word := some v }) s.idxValue.toNat fun _ =>
        EntrySlot.of (entryOf v s.idxValue.toNat) := by
  rw [execDecEntry_sequence, exec, execLdEntry, andThen_load]
  refine congrArg (load s (16 + 8 * s.idxValue.toNat) 8 64) (funext fun v => ?_)
  rw [andThen_next]
  generalize read : s.withRegs { s.regs with word := some v } = u
  have word : u.wordValue = v := read ▸ rfl
  have idx : u.idxValue = s.idxValue := read ▸ rfl
  rcases Nat.lt_or_ge s.idxValue.toNat Config.maxData with inside | outside
  · have again (op : Instr) (listed : op ∈ slotOperations) (e : EntrySlot) :
        exec op (u.withSlot ⟨s.idxValue.toNat, inside⟩ e) =
          .next (u.withSlot ⟨s.idxValue.toNat, inside⟩ (slotWrite v u.epoch s.idxValue.toNat op e)) := by
      rw [exec_slotOperation _ listed, withSlot_idxValue, withSlot_wordValue, State.withSlot_epoch, word, idx,
        writeSlot_again inside]
    rw [exec_slotOperation u (op := .exAdc) (by decide), idx, word, writeSlot_of_lt inside, andThen_next,
      again .exTsFpga (by decide), andThen_next, again .exTsAsic (by decide), andThen_next,
      again .exChannelId (by decide), andThen_next, again .exAsicId (by decide), andThen_next,
      again .exPileUp (by decide), andThen_next, again .exOverflow (by decide), andThen_next,
      withSlot_idxValue, idx, writeSlot_again inside, writeSlot_of_lt inside, EntrySlot.of, entryOf,
      BitVec.ofNat_toNat, BitVec.setWidth_eq]
    rfl
  · rw [exec_slotOperation u (op := .exAdc) (by decide), idx, writeSlot_of_ge outside, writeSlot_of_ge outside,
      andThen_fault]

theorem execDecEntry_of_lt {s : State} {i : BitVec 8} (held : s.idx = some i) (inside : i.toNat < Config.maxData)
    (buffered : 24 + 8 * i.toNat ≤ s.frame.len) :
    execDecEntry s = .next ((s.withRegs { s.regs with word := some (s.frame.le (16 + 8 * i.toNat) 8 64) }).withSlot
      ⟨i.toNat, inside⟩ (EntrySlot.of (entryOf (s.frame.le (16 + 8 * i.toNat) 8 64) i.toNat))) := by
  rw [execDecEntry_eq, idxValue_of_some held, load_of_le (by omega), writeSlot_of_lt inside]
  rfl

theorem execDecEntry_eq_next {s t : State} {i : BitVec 8} (idx : s.idxValue = i) (done : execDecEntry s = .next t) :
    ∃ inside : i.toNat < Config.maxData,
      t = (s.withRegs { s.regs with word := some (s.frame.le (16 + 8 * i.toNat) 8 64) }).withSlot
        ⟨i.toNat, inside⟩ (EntrySlot.of (entryOf (s.frame.le (16 + 8 * i.toNat) 8 64) i.toNat)) := by
  subst idx
  rw [execDecEntry_eq] at done
  obtain ⟨-, done⟩ := load_eq_next done
  exact writeSlot_eq_next done

/-- Settles O30: the load and the write of `execDecEntry_eq`, both inside their bounds. -/
theorem entryDecodeWritesTheWholeSlot : Obligations.EntryDecodeWritesTheWholeSlot := by
  refine fun s i held inside buffered => ⟨_, fun k bound => ?_, execDecEntry_of_lt held inside buffered⟩
  by_cases same : k = i.toNat
  · subst same
    rw [if_pos rfl]
    exact withSlot_ent_self _ ⟨i.toNat, inside⟩ _
  · rw [if_neg same]
    exact withSlot_ent_of_ne _ ⟨i.toNat, inside⟩ _ bound same

/-- Settles O31: the slot written is a function of `idx` and of the 8-byte read, which depends on its own bytes only. -/
theorem entryDependsOnItsOwnBytesOnly : Obligations.EntryDependsOnItsOwnBytesOnly := by
  intro s s' t t' i inside held held' same done done'
  obtain ⟨-, rfl⟩ := execDecEntry_eq_next (idxValue_of_some held) done
  obtain ⟨-, rfl⟩ := execDecEntry_eq_next (idxValue_of_some held') done'
  have word : s.frame.le (16 + 8 * i.toNat) 8 64 = s'.frame.le (16 + 8 * i.toNat) 8 64 :=
    congrArg (BitVec.ofNat 64) (Memory.readLE_congr same)
  rw [word]
  exact (withSlot_ent_self _ ⟨i.toNat, inside⟩ _).trans (withSlot_ent_self _ ⟨i.toNat, inside⟩ _).symm

/-! ## The gates, START, ASSERT.LAYOUT and raise (R211, R214, R222, R256) -/

theorem execChkLen_of_eq {s : State} (passes : s.lenValue.toNat = 1458) : execChkLen s = .next (s.withPhase .hdr) :=
  if_neg (not_not.mpr passes)

theorem execChkLen_of_ne {s : State} (fails : s.lenValue.toNat ≠ 1458) :
    execChkLen s = .next (s.raise .notThisProtocol) := if_pos fails

theorem toNat_saturatedLen (len : Nat) : (saturatedLen len).toNat = min len 65535 :=
  toNat_ofNat_of_lt (by omega)

/-- Settles O32: the two branches of `CHK.LEN`; saturation leaves 1458 alone and gives it to nothing else. -/
theorem lengthCheckAdmitsOnly1458 : Obligations.LengthCheckAdmitsOnly1458 := by
  refine ⟨fun _ => execChkLen_of_eq, fun _ => execChkLen_of_ne, fun len => ?_, fun _ _ => valueOr_of_eq⟩
  rw [toNat_saturatedLen]
  omega

theorem startEnabled_eq_false {s : State} (busy : s.phase = .len ∨ s.phase = .hdr ∨ s.phase = .cnt ∨ s.phase = .ent) :
    s.startEnabled = false := by
  rcases busy with phase | phase | phase | phase <;> rw [State.startEnabled, phase] <;> rfl

theorem execStart_of_enabled {s : State} (enabled : s.startEnabled = true) :
    execStart s = .next (s.beginTransaction s.frameLen) := if_pos enabled

theorem execStart_of_busy {s : State} (busy : s.startEnabled = false) : execStart s = .fault .startWhileBusy :=
  if_neg (by simp [busy])

theorem execDecode_of_busy {s : State} (busy : s.startEnabled = false) : execDecode s = .fault .startWhileBusy :=
  if_neg (by simp [busy])

/-- Settles O33: the two branches of START. -/
theorem startBeginsATransaction : Obligations.StartBeginsATransaction := by
  refine ⟨fun s waits => ⟨s.epoch + 1, execStart_of_enabled ((startEnabled_iff s).mpr waits)⟩, fun s t busy => ?_⟩
  rw [exec, execStart_of_busy (startEnabled_eq_false busy)]
  exact fun next => nomatch next

/-- Settles O36, by definition. -/
theorem raiseRecordsTheErrorAndNothingElse : Obligations.RaiseRecordsTheErrorAndNothingElse :=
  ⟨fun _ _ => rfl, rfl, rfl, rfl, rfl⟩

theorem execAssertLayout_eq (s : State) : execAssertLayout s = .next s := if_pos (layoutHolds_params s)

/-- Settles O43: the sum is the check itself, and a build's parameters pass it. -/
theorem layoutAssertionHolds : Obligations.LayoutAssertionHolds := by
  refine ⟨execAssertLayout_eq, fun p => beq_iff_eq, fun p broken => ?sum, fun p zero => ?length, fun s => ?build⟩
  case sum => simp [legalConfiguration, layoutHolds, broken]
  case length => simp [legalConfiguration, zero]
  case build =>
    refine ⟨rfl, rfl, rfl, ?_⟩
    rw [legalConfiguration, layoutHolds_params, Bool.true_and]
    exact decide_eq_true s.clkStrMaxlen.property

end Sys2Proof.Machine

/-! PROOFS about what a buffer's bytes say (`42_header.md` R171, `43_count.md` R186, `45_frame.md` R212). A slice that
lies in one byte of a read is that byte's slice; the status and the count are then functions of single bytes, and
`DECODE` answers by the length and by the count. -/

namespace Sys2Proof.Machine

/-! ## Slices of one byte -/

/-- Below bit 8 a number's bits are its lowest byte's. -/
theorem shiftRight_mod_of_byte {low : Nat} (high lo len : Nat) (within : lo + len ≤ 8) :
    (low + 256 * high) >>> lo % 2 ^ len = low >>> lo % 2 ^ len := by
  have whole : 2 ^ lo * 2 ^ len ∣ 256 * high := by
    rw [← Nat.pow_add]
    exact Nat.dvd_mul_right_of_dvd (Nat.pow_dvd_pow 2 within : 2 ^ (lo + len) ∣ 2 ^ 8) high
  obtain ⟨rest, rest_eq⟩ := whole
  rw [Nat.shiftRight_eq_div_pow, Nat.shiftRight_eq_div_pow, rest_eq, ← Nat.mod_mul_right_div_self,
    ← Nat.mod_mul_right_div_self low, Nat.add_mul_mod_self_left]

/-- A slice that lies in byte `k` of a read is that byte's slice. -/
theorem Memory.extractLsb'_le_byte (m : Memory) (off k n : Nat) {w lo len : Nat} (wide : 8 * (k + (n + 1)) ≤ w)
    (within : lo + len ≤ 8) :
    (m.le off (k + (n + 1)) w).extractLsb' (8 * k + lo) len = (m.byte (off + k)).extractLsb' lo len := by
  have fits : m.readLE off (k + (n + 1)) < 2 ^ w :=
    (m.readLE_lt off _).trans_le (Nat.pow_le_pow_right (by decide) wide)
  apply BitVec.eq_of_toNat_eq
  rw [BitVec.extractLsb'_toNat, BitVec.extractLsb'_toNat, le, toNat_ofNat_of_lt fits, Nat.shiftRight_add,
    readLE_shiftRight, readLE_succ, shiftRight_mod_of_byte _ lo len within]

/-- The status is a function of bytes 13, 14 and 15 (R171). -/
theorem statusOf_le (m : Memory) : statusOf (m.le 13 3 24) = {
    clkState         := (m.byte 15).extractLsb' 0 5
    i2cStatus        := (m.byte 14).extractLsb' 0 4
    adcClkSel        := (m.byte 13).extractLsb' 4 2
    asicEnableStatus := (m.byte 13).extractLsb' 0 4 } := by
  have clkState : bits 20 16 (m.le 13 3 24) = _ := m.extractLsb'_le_byte 13 2 0 (lo := 0) (by decide) (by decide)
  have i2cStatus : bits 11 8 (m.le 13 3 24) = _ := m.extractLsb'_le_byte 13 1 1 (lo := 0) (by decide) (by decide)
  have adcClkSel : bits 5 4 (m.le 13 3 24) = _ := m.extractLsb'_le_byte 13 0 2 (lo := 4) (by decide) (by decide)
  have asicEnable : bits 3 0 (m.le 13 3 24) = _ := m.extractLsb'_le_byte 13 0 2 (lo := 0) (by decide) (by decide)
  rw [statusOf, clkState, i2cStatus, adcClkSel, asicEnable]

/-- Settles O25: `DEC.HDR`'s one write, with the status of `statusOf_le`. -/
theorem headerDecodeGivesStatusOfThreeBytes : Obligations.HeaderDecodeGivesStatusOfThreeBytes := by
  refine fun s header => ⟨statusOf (s.frame.le 13 3 24), ?_, ?_, ?_, ?_, execDecHdr_of_le header⟩
  all_goals simp [statusOf_le, BitVec.extractLsb'_toNat, Nat.shiftRight_eq_div_pow]

/-- The count is a function of bytes 1456 and 1457 (R186). -/
theorem toNat_countOf (m : Memory) :
    (countOf m).toNat = (m.byte 1457).toNat * 32 + (m.byte 1456).toNat / 8 := by
  have low := (m.byte 1456).isLt
  have high := (m.byte 1457).isLt
  have raw : (m.le 1456 2 16).toNat = (m.byte 1456).toNat + 256 * (m.byte 1457).toNat := by
    rw [Memory.le, toNat_ofNat_of_lt (m.readLE_lt 1456 2)]
    rfl
  rw [countOf, BitVec.toNat_ushiftRight, Nat.shiftRight_eq_div_pow, show offCount = 1456 from rfl, raw]
  omega

/-! ## What DECODE answers (R210, R212) -/

section
variable (c : Config.StrMaxlen) {m : Memory}

theorem decodeFrame_of_len (other : m.len ≠ 1458) : decodeFrame c m = .error .notThisProtocol := if_pos other

theorem decodeFrame_of_count (length : m.len = 1458) (fails : 180 < (countOf m).toNat) :
    decodeFrame c m = .error .malformedCount := by
  rw [decodeFrame, if_neg (not_not.mpr length), if_pos fails]

theorem decodeFrame_of_pass (length : m.len = 1458) (passes : (countOf m).toNat ≤ 180) :
    decodeFrame c m = .ok (packetOf c m) :=
  decodeFrame_eq_ok_iff.mpr ⟨length, passes, rfl⟩

end

/-- Settles O40: in each of the three cases of length and count `DECODE` answers its own outcome. -/
theorem outcomesAreExactlyThree : Obligations.OutcomesAreExactlyThree := by
  intro c m
  rw [← toNat_countOf]
  by_cases length : m.len = 1458
  · rcases Nat.lt_or_ge 180 (countOf m).toNat with fails | passes
    · simp [decodeFrame_of_count c length fails, length, fails]
    · simp [decodeFrame_of_pass c length passes, length, passes]
  · simp [decodeFrame_of_len c length, length]

/-- Bytes with the same upper five bits are the same multiple of eight, but for their lower bits. -/
theorem div_eight_eq_of_extractLsb' {a b : Byte} (same : a.extractLsb' 3 5 = b.extractLsb' 3 5) :
    a.toNat / 8 = b.toNat / 8 := by
  have upper := congrArg BitVec.toNat same
  rw [BitVec.extractLsb'_toNat, BitVec.extractLsb'_toNat, Nat.shiftRight_eq_div_pow, Nat.shiftRight_eq_div_pow] at upper
  omega

/-- Buffers that agree on the bytes of the slots below the count have the same entries. -/
theorem packetOf_congr {c : Config.StrMaxlen} {a b : Memory} (packetNo : a.le 0 8 64 = b.le 0 8 64)
    (status : statusOf (a.le 13 3 24) = statusOf (b.le 13 3 24)) (count : countOf a = countOf b)
    (slots : ∀ k, 16 ≤ k → k < 16 + 8 * (countOf a).toNat → a.byte k = b.byte k) : packetOf c a = packetOf c b := by
  have entries : ∀ i ∈ List.range (countOf a).toNat,
      entryOf (a.le (16 + 8 * i) 8 64) i = entryOf (b.le (16 + 8 * i) 8 64) i := by
    intro i below
    have slot : i < (countOf a).toNat := List.mem_range.mp below
    rw [Memory.le, Memory.le, Memory.readLE_congr fun k bound => slots (16 + 8 * i + k) (by omega) (by omega)]
  rw [packetOf, packetOf, packetNo, status, List.map_congr_left entries, count]

/-- Settles O39: the footprint fixes the packet number, the status, the count and, where it passes, the entries. -/
theorem reservedBitsAndPaddingDoNotReachTheResult : Obligations.ReservedBitsAndPaddingDoNotReachTheResult := by
  intro c a b lengthA lengthB footprint
  obtain ⟨header, byte15, byte14, byte13, byte1456, byte1457, slots⟩ := footprint
  have packetNo : a.le 0 8 64 = b.le 0 8 64 := by
    rw [Memory.le, Memory.le, Memory.readLE_congr fun k bound => (Nat.zero_add k).symm ▸ header k bound]
  have adcClkSel : (a.byte 13).extractLsb' 4 2 = (b.byte 13).extractLsb' 4 2 := by
    simpa using congrArg (·.extractLsb' 4 2) byte13
  have asicEnable : (a.byte 13).extractLsb' 0 4 = (b.byte 13).extractLsb' 0 4 := by
    simpa using congrArg (·.extractLsb' 0 4) byte13
  have status : statusOf (a.le 13 3 24) = statusOf (b.le 13 3 24) := by
    rw [statusOf_le, statusOf_le, byte15, byte14, adcClkSel, asicEnable]
  have count : countOf a = countOf b := by
    apply BitVec.eq_of_toNat_eq
    rw [toNat_countOf, toNat_countOf, byte1457, div_eight_eq_of_extractLsb' byte1456]
  rcases Nat.lt_or_ge 180 (countOf a).toNat with fails | passes
  · rw [decodeFrame_of_count c lengthA fails, decodeFrame_of_count c lengthB (count ▸ fails)]
  · rw [decodeFrame_of_pass c lengthA passes, decodeFrame_of_pass c lengthB (count ▸ passes),
      packetOf_congr packetNo status count (slots passes)]

end Sys2Proof.Machine

/-! PROOFS about the block's own sequence (`45_frame.md` R214 to R219). Under the invariant of a transaction no place
without a value is read, so a step of R215's table is a function of the block alone, `State.advance`. What one such step
does is said once (`advance_cases`): it goes on with the transaction, or it ends it as `DECODE` answers. -/

namespace Sys2Proof.Machine

/-! ## Steps -/

/-- Settles O45: bytes on the operation port come before `start`, and `decode` says which operation they are or why
they are none. -/
theorem stepRunsTheDecodedOperation : Obligations.StepRunsTheDecodedOperation := by
  refine ⟨fun s i rest noRst read => ?operation, fun s e noRst waiting read => ?none⟩
  case operation =>
    cases port : s.opQueue with
    | nil => rw [port] at read; cases read
    | cons b bs => rw [port] at read; simp [step, fetch, noRst, port, read, State.withQueue]
  case none =>
    cases port : s.opQueue with
    | nil => exact absurd port waiting
    | cons b bs => rw [port] at read; simp [step, fetch, noRst, port, read]

/-- Settles O34: a quiet step is the row of its phase, and a taken `start` is START. -/
theorem stepsFollowThePhaseTable : Obligations.StepsFollowThePhaseTable := by
  refine fun s => ⟨fun quiet => ?rows, fun noRst noOperation start => ⟨false, step_of_start noRst noOperation start⟩⟩
  rw [step_of_quiet quiet]
  refine ⟨?idle, ?len, ?hdr, ?cnt, ?below, ?commit, ?done⟩
  all_goals
    intro phase
    simp only [phaseStep, phase]
  case idle | done => rintro t ⟨⟩; rfl
  case len | hdr | cnt => rfl
  case below => intro below; rw [if_pos below]; rfl
  case commit =>
    intro last passes
    rw [if_neg (by omega), if_pos last, commit_of_le passes]
    exact ⟨_, rfl⟩

/-! ## The facts of each phase -/

section
variable {s : State}

theorem phaseInv_iff_of_idle (phase : s.phase = .idle) :
    PhaseInv s ↔ s.idx = none ∧ s.regs = Regs.empty ∧ EntriesRead s 0 := by simp only [PhaseInv, phase]

theorem phaseInv_iff_of_len (phase : s.phase = .len) :
    PhaseInv s ↔ s.regs.len = some (saturatedLen s.frame.len) ∧ EntriesRead s 0 := by simp only [PhaseInv, phase]

theorem phaseInv_iff_of_hdr (phase : s.phase = .hdr) :
    PhaseInv s ↔ s.frame.len = 1458 ∧ EntriesRead s 0 := by simp only [PhaseInv, phase]

theorem phaseInv_iff_of_cnt (phase : s.phase = .cnt) :
    PhaseInv s ↔ s.frame.len = 1458 ∧ HeaderRead s ∧ EntriesRead s 0 := by simp only [PhaseInv, phase]

theorem phaseInv_iff_of_ent (phase : s.phase = .ent) :
    PhaseInv s ↔ s.frame.len = 1458 ∧ HeaderRead s ∧ s.regs.dataCount = some (countOf s.frame) ∧
      (countOf s.frame).toNat ≤ 180 ∧
      ∃ i : BitVec 8, s.idx = some i ∧ i.toNat ≤ (countOf s.frame).toNat ∧ EntriesRead s i.toNat := by
  simp only [PhaseInv, phase]

theorem phaseInv_iff_of_done (phase : s.phase = .done) :
    PhaseInv s ↔ ∀ p, s.result = some p → p.good s.clkStrMaxlen := by simp only [PhaseInv, phase]

/-- Where every slot is empty, no entry has been read. -/
theorem entriesRead_zero_iff : EntriesRead s 0 ↔ ∀ (k : Nat) (h : k < Config.maxData), s.ent[k] = EntrySlot.empty := by
  simp [EntriesRead]

end

theorem entriesRead_of_replicate {s : State} (empty : s.ent = Vector.replicate Config.maxData EntrySlot.empty) :
    EntriesRead s 0 :=
  entriesRead_zero_iff.mpr fun k inside => by simp only [empty, Vector.getElem_replicate]

/-! ## One step of a transaction -/

/-- A transaction is running, with its phase's facts. -/
structure Underway (s : State) : Prop where
  facts   : PhaseInv s
  notIdle : s.phase ≠ .idle
  notDone : s.phase ≠ .done

/-- The block after the count step has read the count. -/
def State.withCount (s : State) : State :=
  s.withRegs { s.regs with countRaw := some (s.frame.le offCount 2 16), dataCount := some (countOf s.frame) }

/-- The block after the entry step has decoded slot `i`. -/
def State.withEntry (s : State) (i : BitVec 8) : State :=
  { s with
    regs := { s.regs with word := some (s.frame.le (16 + 8 * i.toNat) 8 64) }
    ent  := s.ent.setIfInBounds i.toNat (EntrySlot.of (entryOf (s.frame.le (16 + 8 * i.toNat) 8 64) i.toNat))
    idx  := some (i + 1) }

/-- The end of a transaction that answers what `DECODE` answers. -/
def State.conclude (s : State) : Except FrameError Packet → State
  | .ok p => s.endWith .ok (some p)
  | .error e => s.raise e

/-- What `DECODE` answers for the buffer the block has. -/
def State.answer (s : State) : Except FrameError Packet := decodeFrame s.clkStrMaxlen s.frame

/-- One step of R215's table as a function of the block alone: what each phase writes when its facts hold. -/
def State.advance (s : State) : State :=
  match s.phase with
  | .idle | .done => s
  | .len => if s.frame.len = 1458 then s.withPhase .hdr else s.raise .notThisProtocol
  | .hdr => (s.withRegs (s.headerRegs (s.frame.le 0 8 64) (s.frame.le 13 3 24))).withPhase .cnt
  | .cnt =>
      if (countOf s.frame).toNat ≤ 180 then (s.withCount.withIdx 0).withPhase .ent
      else s.withCount.raise .malformedCount
  | .ent =>
      if (s.idx.getD 0).toNat < (countOf s.frame).toNat then s.withEntry (s.idx.getD 0)
      else s.endWith .ok (some (packetOf s.clkStrMaxlen s.frame))

section
variable {s : State}

theorem advance_of_done (phase : s.phase = .done) : s.advance = s := by simp only [State.advance, phase]

theorem advance_of_len_pass (phase : s.phase = .len) (length : s.frame.len = 1458) : s.advance = s.withPhase .hdr := by
  simp only [State.advance, phase, if_pos length]

theorem advance_of_len_fail (phase : s.phase = .len) (length : s.frame.len ≠ 1458) :
    s.advance = s.raise .notThisProtocol := by
  simp only [State.advance, phase, if_neg length]

theorem advance_of_hdr (phase : s.phase = .hdr) :
    s.advance = (s.withRegs (s.headerRegs (s.frame.le 0 8 64) (s.frame.le 13 3 24))).withPhase .cnt := by
  simp only [State.advance, phase]

theorem advance_of_cnt_pass (phase : s.phase = .cnt) (passes : (countOf s.frame).toNat ≤ 180) :
    s.advance = (s.withCount.withIdx 0).withPhase .ent := by
  simp only [State.advance, phase, if_pos passes]

theorem advance_of_cnt_fail (phase : s.phase = .cnt) (fails : 180 < (countOf s.frame).toNat) :
    s.advance = s.withCount.raise .malformedCount := by
  simp only [State.advance, phase, if_neg (Nat.not_le.mpr fails)]

theorem advance_of_ent_below {i : BitVec 8} (phase : s.phase = .ent) (held : s.idx = some i)
    (below : i.toNat < (countOf s.frame).toNat) : s.advance = s.withEntry i := by
  simp only [State.advance, phase, held, Option.getD_some, if_pos below]

theorem advance_of_ent_last {i : BitVec 8} (phase : s.phase = .ent) (held : s.idx = some i)
    (last : i.toNat = (countOf s.frame).toNat) :
    s.advance = s.endWith .ok (some (packetOf s.clkStrMaxlen s.frame)) := by
  simp only [State.advance, phase, held, Option.getD_some, if_neg (Nat.not_lt.mpr last.ge)]

end

/-! ### The table's rows are `advance` -/

/-- The count step's two loads and its check, on a buffer that has the count. -/
theorem countStep_of_le {s : State} (buffered : 1458 ≤ s.frame.len) : countStep s = execChkCount s.withCount := by
  rw [countStep, execLdCount, load_of_le (by exact buffered), andThen_next, execExCount, andThen_next]
  have count : extract (s.frame.le offCount 2 16) dataCountMask = countOf s.frame := extract_dataCountMask _
  rw [State.withCount, ← count]
  rfl

/-- Settles O28: the count step is `CHK.COUNT` on the count of bytes 1456 and 1457. -/
theorem countStepIsAFunctionOfTwoBytes : Obligations.CountStepIsAFunctionOfTwoBytes := by
  intro s quiet phase buffered
  have row : step s = execChkCount s.withCount := by
    rw [step_of_quiet quiet, ← countStep_of_le buffered]
    simp only [phaseStep, phase]
  exact ⟨s.frame.le offCount 2 16, countOf s.frame, toNat_countOf s.frame,
    fun passes => row.trans (execChkCount_of_le passes), fun fails => row.trans (execChkCount_of_gt fails)⟩

/-- The entry step decodes the slot that `idx` names and raises `idx`. -/
theorem entryStep_of_lt {s : State} {i : BitVec 8} (held : s.idx = some i) (inside : i.toNat < Config.maxData)
    (buffered : 24 + 8 * i.toNat ≤ s.frame.len) : entryStep s = .next (s.withEntry i) := by
  rw [entryStep, execDecEntry_of_lt held inside buffered, andThen_next, withSlot_idxValue, withRegs_idxValue,
    idxValue_of_some held]
  have slots (e : EntrySlot) : s.ent.set i.toNat e = s.ent.setIfInBounds i.toNat e :=
    Vector.ext fun k bound => by rw [Vector.getElem_set, Vector.getElem_setIfInBounds]
  rw [State.withEntry, ← slots]
  rfl

/-- The packet a commit assembles is `DECODE`'s when the header, the count and the entries have been read. -/
theorem assembled_eq_packetOf {s : State} {n : Nat} (header : HeaderRead s)
    (count : s.regs.dataCount = some (countOf s.frame)) (all : n = (countOf s.frame).toNat) (read : EntriesRead s n)
    (bound : n ≤ Config.maxData) : s.assembled n bound = packetOf s.clkStrMaxlen s.frame := by
  obtain ⟨packetNo, -, clkState, i2cStatus, adcClkSel, asicEnableStatus, clkStateStr⟩ := header
  have entries : (List.ofFn fun k : Fin n => (s.ent[k.val]'(Nat.lt_of_lt_of_le k.isLt bound)).read s.epoch k.val) =
      (List.range (countOf s.frame).toNat).map fun i => entryOf (s.frame.le (16 + 8 * i) 8 64) i := by
    refine List.ext_getElem (by simp [all]) fun k below _ => ?_
    have slot : k < n := by simpa using below
    simp [read k (Nat.lt_of_lt_of_le slot bound), slot]
  rw [State.assembled, entries, packetOf, State.packetNoValue, valueOr_of_eq packetNo, State.clkStateValue,
    valueOr_of_eq clkState, State.i2cStatusValue, valueOr_of_eq i2cStatus, State.adcClkSelValue,
    valueOr_of_eq adcClkSel, State.asicEnableStatusValue, valueOr_of_eq asicEnableStatus, State.dataCountValue,
    valueOr_of_eq count, State.clkStateStrValue, clkStateStr, Option.getD_some]

/-- While a transaction runs, the row of its phase is `advance`. -/
theorem phaseStep_of_underway {s : State} (running : Underway s) : phaseStep s = .next s.advance := by
  obtain ⟨facts, notIdle, notDone⟩ := running
  cases phase : s.phase with
  | idle => exact absurd phase notIdle
  | done => exact absurd phase notDone
  | len =>
    obtain ⟨held, -⟩ := (phaseInv_iff_of_len phase).mp facts
    have value : s.lenValue.toNat = 1458 ↔ s.frame.len = 1458 := by
      rw [State.lenValue, valueOr_of_eq held, toNat_saturatedLen]
      omega
    simp only [phaseStep, phase]
    by_cases length : s.frame.len = 1458
    · rw [advance_of_len_pass phase length, execChkLen_of_eq (value.mpr length)]
    · rw [advance_of_len_fail phase length, execChkLen_of_ne (mt value.mp length)]
  | hdr =>
    obtain ⟨length, -⟩ := (phaseInv_iff_of_hdr phase).mp facts
    simp only [phaseStep, phase]
    rw [advance_of_hdr phase, execDecHdr_of_le (by omega), andThen_next]
  | cnt =>
    obtain ⟨length, -, -⟩ := (phaseInv_iff_of_cnt phase).mp facts
    simp only [phaseStep, phase]
    rw [countStep_of_le length.ge]
    rcases Nat.lt_or_ge 180 (countOf s.frame).toNat with fails | passes
    · rw [advance_of_cnt_fail phase fails, execChkCount_of_gt (s := s.withCount) fails]
    · rw [advance_of_cnt_pass phase passes, execChkCount_of_le (s := s.withCount) passes]
  | ent =>
    obtain ⟨length, header, count, passes, i, held, reached, read⟩ := (phaseInv_iff_of_ent phase).mp facts
    have value : s.dataCountValue = countOf s.frame := valueOr_of_eq count
    simp only [phaseStep, phase]
    rw [idxValue_of_some held]
    rcases Nat.lt_or_eq_of_le reached with below | last
    · rw [value, if_pos below, advance_of_ent_below phase held below,
        entryStep_of_lt held (Nat.lt_of_lt_of_le below passes) (by omega)]
    · have whole (bound) : s.assembled s.dataCountValue.toNat bound = packetOf s.clkStrMaxlen s.frame :=
        assembled_eq_packetOf header count (by rw [value]) (by rwa [value, ← last]) bound
      rw [if_neg (by rw [value]; omega), if_pos (value ▸ last), commit_of_le (value ▸ passes),
        advance_of_ent_last phase held last, whole]

/-! ### What a step of a transaction does -/

/-- The steps a running transaction has to go (R216). -/
def State.stepsToGo (s : State) : Nat :=
  match s.phase with
  | .idle | .done => 0
  | .len => stepsAfterStart s.answer
  | .hdr => stepsAfterStart s.answer - 1
  | .cnt => stepsAfterStart s.answer - 2
  | .ent => (countOf s.frame).toNat - (s.idx.getD 0).toNat + 1

/-- A buffer of the right length takes three steps at least: `LEN`, `HDR` and `CNT`. -/
theorem three_le_stepsAfterStart {s : State} (length : s.frame.len = 1458) : 3 ≤ stepsAfterStart s.answer := by
  rcases Nat.lt_or_ge 180 (countOf s.frame).toNat with fails | passes
  · rw [State.answer, decodeFrame_of_count _ length fails, stepsAfterStart]
  · rw [State.answer, decodeFrame_of_pass _ length passes, stepsAfterStart]
    omega

theorem headerRead_of_headerRegs {s : State}
    (regs : s.regs = s.headerRegs (s.frame.le 0 8 64) (s.frame.le 13 3 24)) : HeaderRead s := by
  rw [HeaderRead, regs]
  exact ⟨rfl, rfl, rfl, rfl, rfl, rfl, rfl⟩

/-- Decoding slot `i` extends the entries read by one. -/
theorem entriesRead_withEntry {s : State} {i : BitVec 8} (read : EntriesRead s i.toNat) :
    EntriesRead (s.withEntry i) (i.toNat + 1) := by
  intro k inside
  have slot : (s.withEntry i).ent[k] = if i.toNat = k then
      EntrySlot.of (entryOf (s.frame.le (16 + 8 * i.toNat) 8 64) i.toNat) else s.ent[k] :=
    Vector.getElem_setIfInBounds inside
  rcases Nat.lt_trichotomy k i.toNat with below | rfl | above
  · rw [slot, if_neg below.ne', read k inside, if_pos below, if_pos (by omega)]
    rfl
  · rw [slot, if_pos rfl, if_pos (by omega)]
    rfl
  · rw [slot, if_neg above.ne, read k inside, if_neg (by omega), if_neg (by omega)]

/-- The step goes on with the transaction, one step nearer to its end, and shows nothing of it. -/
def GoesOn (s : State) : Prop :=
  Underway s.advance ∧ FlagsUntouched s s.advance ∧ s.stepsToGo = s.advance.stepsToGo + 1

/-- The step is the last one and ends the transaction as `DECODE` answers. -/
def Ends (s : State) : Prop := ∃ r, s.advance = (s.withRegs r).conclude s.answer ∧ s.stepsToGo = 1

section
variable {s : State} (facts : PhaseInv s)
include facts

theorem goesOn_or_ends_of_len (phase : s.phase = .len) : GoesOn s ∨ Ends s := by
  obtain ⟨-, empty⟩ := (phaseInv_iff_of_len phase).mp facts
  have count : s.stepsToGo = stepsAfterStart s.answer := by simp only [State.stepsToGo, phase]
  by_cases length : s.frame.len = 1458
  · have atLeast := three_le_stepsAfterStart length
    have nearer : s.stepsToGo = (stepsAfterStart s.answer - 1) + 1 := by omega
    rw [GoesOn, advance_of_len_pass phase length]
    exact .inl ⟨⟨(phaseInv_iff_of_hdr rfl).mpr ⟨length, empty⟩, nofun, nofun⟩, ⟨rfl, rfl, rfl, rfl⟩, nearer⟩
  · have answer : s.answer = .error .notThisProtocol := decodeFrame_of_len _ length
    rw [Ends, advance_of_len_fail phase length, count, answer]
    exact .inr ⟨s.regs, rfl, rfl⟩

theorem goesOn_of_hdr (phase : s.phase = .hdr) : GoesOn s := by
  obtain ⟨length, empty⟩ := (phaseInv_iff_of_hdr phase).mp facts
  have count : s.stepsToGo = stepsAfterStart s.answer - 1 := by simp only [State.stepsToGo, phase]
  have atLeast := three_le_stepsAfterStart length
  have nearer : s.stepsToGo = (stepsAfterStart s.answer - 2) + 1 := by omega
  have header := headerRead_of_headerRegs
    (s := (s.withRegs (s.headerRegs (s.frame.le 0 8 64) (s.frame.le 13 3 24))).withPhase .cnt) rfl
  rw [GoesOn, advance_of_hdr phase]
  exact ⟨⟨(phaseInv_iff_of_cnt rfl).mpr ⟨length, header, empty⟩, nofun, nofun⟩, ⟨rfl, rfl, rfl, rfl⟩, nearer⟩

theorem goesOn_or_ends_of_cnt (phase : s.phase = .cnt) : GoesOn s ∨ Ends s := by
  obtain ⟨length, header, empty⟩ := (phaseInv_iff_of_cnt phase).mp facts
  have count : s.stepsToGo = stepsAfterStart s.answer - 2 := by simp only [State.stepsToGo, phase]
  rcases Nat.lt_or_ge 180 (countOf s.frame).toNat with fails | passes
  · have answer : s.answer = .error .malformedCount := decodeFrame_of_count _ length fails
    rw [Ends, advance_of_cnt_fail phase fails, count, answer]
    exact .inr ⟨s.withCount.regs, rfl, rfl⟩
  · have answer : s.answer = .ok (packetOf s.clkStrMaxlen s.frame) := decodeFrame_of_pass _ length passes
    have nearer : s.stepsToGo = ((countOf s.frame).toNat - 0 + 1) + 1 := by
      rw [count, answer]
      show 4 + (countOf s.frame).toNat - 2 = _
      omega
    rw [GoesOn, advance_of_cnt_pass phase passes]
    exact .inl ⟨⟨(phaseInv_iff_of_ent rfl).mpr ⟨length, header, rfl, passes, 0, rfl, Nat.zero_le _, empty⟩, nofun,
      nofun⟩, ⟨rfl, rfl, rfl, rfl⟩, nearer⟩

theorem goesOn_or_ends_of_ent (phase : s.phase = .ent) : GoesOn s ∨ Ends s := by
  obtain ⟨length, header, count, passes, i, held, reached, read⟩ := (phaseInv_iff_of_ent phase).mp facts
  have toGo (t : State) (there : t.phase = .ent) (j : BitVec 8) (idx : t.idx = some j) :
      t.stepsToGo = (countOf t.frame).toNat - j.toNat + 1 := by
    simp only [State.stepsToGo, there, idx, Option.getD_some]
  rcases Nat.lt_or_eq_of_le reached with below | last
  · have raised : (i + 1).toNat = i.toNat + 1 := by
      rw [BitVec.toNat_add]
      exact Nat.mod_eq_of_lt (show i.toNat + 1 < 256 by omega)
    have nearer : s.stepsToGo = (s.withEntry i).stepsToGo + 1 := by
      rw [toGo s phase i held, toGo (s.withEntry i) phase (i + 1) rfl, raised]
      show _ = (countOf s.frame).toNat - _ + 1 + 1
      omega
    have facts : PhaseInv (s.withEntry i) := (phaseInv_iff_of_ent (s := s.withEntry i) phase).mpr
      ⟨length, header, count, passes, i + 1, rfl, raised ▸ below, raised ▸ entriesRead_withEntry read⟩
    have here : (s.withEntry i).phase = .ent := phase
    rw [GoesOn, advance_of_ent_below phase held below]
    exact .inl ⟨⟨facts, here ▸ nofun, here ▸ nofun⟩, ⟨rfl, rfl, rfl, rfl⟩, nearer⟩
  · have answer : s.answer = .ok (packetOf s.clkStrMaxlen s.frame) := decodeFrame_of_pass _ length passes
    rw [Ends, advance_of_ent_last phase held last, toGo s phase i held, last, Nat.sub_self, answer]
    exact .inr ⟨s.regs, rfl, rfl⟩

end

/-- What a step of a transaction does. -/
theorem goesOn_or_ends {s : State} (running : Underway s) : GoesOn s ∨ Ends s := by
  obtain ⟨facts, notIdle, notDone⟩ := running
  cases phase : s.phase with
  | idle => exact absurd phase notIdle
  | len => exact goesOn_or_ends_of_len facts phase
  | hdr => exact .inl (goesOn_of_hdr facts phase)
  | cnt => exact goesOn_or_ends_of_cnt facts phase
  | ent => exact goesOn_or_ends_of_ent facts phase
  | done => exact absurd phase notDone

end Sys2Proof.Machine

/-! PROOFS about the invariant of a running block (`10_state.md` R28, R33; `45_frame.md` R215, R217). The invariant is
the frame's canonical form, the ports, the flags tied to the phase, and the phase's facts; each of the four is kept by
`rst`, by START, by waiting and by a step of a transaction. -/

namespace Sys2Proof.Machine

/-! ## The flags -/

/-- The flags as R28 and R30 tie them to the phase and to each other, code 3 not among them. -/
def FlagsTied (s : State) : Prop :=
  (s.done = true ↔ s.phase = .done) ∧
  (s.resultValid = true ↔ s.done = true ∧ s.outcome = some .ok) ∧
  (s.resultValid = true ↔ s.result.isSome = true) ∧
  (s.outcome.isSome = true ↔ s.done = true) ∧
  s.outcome ≠ some .internalConsistency

theorem inv_iff (s : State) :
    Inv s ↔ s.frame.wf ∧ s.opQueue = [] ∧ (s.start = true → s.startEnabled = true ∧ LaunchLengthTrue s) ∧
      FlagsTied s ∧ PhaseInv s := by
  simp only [Inv, FlagsTied, and_assoc]

/-- Before the end of a transaction no flag is set and nothing is shown. -/
def FlagsClear (s : State) : Prop :=
  s.done = false ∧ s.outcome = none ∧ s.resultValid = false ∧ s.result = none

theorem flagsTied_iff_of_not_done {s : State} (notDone : s.phase ≠ .done) : FlagsTied s ↔ FlagsClear s := by
  constructor
  · rintro ⟨done, valid, result, outcome, -⟩
    have clear : s.done = false := by simpa [notDone] using done
    simp only [clear, Bool.false_eq_true, false_and, iff_false, Bool.not_eq_true] at valid outcome
    simp only [valid, Bool.false_eq_true, false_iff, Option.not_isSome_iff_eq_none] at result
    exact ⟨clear, by simpa using outcome, valid, result⟩
  · rintro ⟨done, outcome, valid, result⟩
    simp [FlagsTied, done, outcome, valid, result, notDone]

/-- The end of a transaction ties the flags to `DECODE`'s answer, which is never code 3. -/
theorem flagsTied_conclude (s : State) {answer : Except FrameError Packet}
    (reachable : answer ≠ .error .internalConsistency) : FlagsTied (s.conclude answer) := by
  rcases answer with error | p
  · cases error with
    | internalConsistency => exact absurd rfl reachable
    | notThisProtocol | malformedCount => simp [State.conclude, FlagsTied, FrameError.outcome]
  · simp [State.conclude, FlagsTied]

theorem presents_conclude (s : State) (answer : Except FrameError Packet) :
    Presents (s.conclude answer) answer := by
  cases answer <;> exact ⟨rfl, rfl, rfl⟩

theorem conclude_phase (s : State) (answer : Except FrameError Packet) : (s.conclude answer).phase = .done := by
  cases answer <;> rfl

theorem conclude_done (s : State) (answer : Except FrameError Packet) : (s.conclude answer).done = true := by
  cases answer <;> rfl

theorem conclude_clkStrMaxlen (s : State) (answer : Except FrameError Packet) :
    (s.conclude answer).clkStrMaxlen = s.clkStrMaxlen := by
  cases answer <;> rfl

theorem conclude_result_eq_some {s : State} {answer : Except FrameError Packet} {p : Packet}
    (shown : (s.conclude answer).result = some p) : answer = .ok p := by
  cases answer with
  | error e => cases shown
  | ok q => cases shown; rfl

theorem answer_ne_internalConsistency (s : State) : s.answer ≠ .error .internalConsistency := by
  obtain ⟨-, -, -, never⟩ := outcomesAreExactlyThree s.clkStrMaxlen s.frame
  exact never

/-! ## What `advance` leaves alone -/

/-- A step of a transaction writes no port, no byte of the frame and none of the model's own fields. -/
theorem advance_untouched (s : State) :
    s.advance.frame = s.frame ∧ PortsUntouched s s.advance ∧ OwnUntouched s s.advance := by
  unfold State.advance
  split
  case h_1 | h_2 | h_4 => exact ⟨rfl, ⟨rfl, rfl, rfl, rfl, rfl⟩, rfl, rfl⟩
  all_goals split <;> exact ⟨rfl, ⟨rfl, rfl, rfl, rfl, rfl⟩, rfl, rfl⟩

theorem advance_quiet {s : State} (quiet : HostQuiet s) : HostQuiet s.advance := by
  obtain ⟨-, ⟨rst, start, -, port, -⟩, -⟩ := advance_untouched s
  obtain ⟨noRst, noStart, noOperation⟩ := quiet
  exact ⟨rst.trans noRst, start.trans noStart, port.trans noOperation⟩

/-! ## The invariant -/

/-- A block that waits keeps its phase's facts under any frame (R26: nothing is left of an earlier buffer but a
result). -/
theorem phaseInv_congr {s t : State} (waits : s.phase = .idle ∨ s.phase = .done) (phase : t.phase = s.phase)
    (idx : t.idx = s.idx) (regs : t.regs = s.regs) (ent : t.ent = s.ent) (result : t.result = s.result)
    (build : t.clkStrMaxlen = s.clkStrMaxlen) (facts : PhaseInv s) : PhaseInv t := by
  rcases waits with idle | done
  · obtain ⟨noIdx, noRegs, empty⟩ := (phaseInv_iff_of_idle idle).mp facts
    refine (phaseInv_iff_of_idle (phase.trans idle)).mpr ⟨idx.trans noIdx, regs.trans noRegs, ?_⟩
    exact entriesRead_zero_iff.mpr (ent ▸ entriesRead_zero_iff.mp empty)
  · rw [phaseInv_iff_of_done (phase.trans done), result, build]
    exact (phaseInv_iff_of_done done).mp facts

theorem phaseInv_applyReset (s : State) : PhaseInv s.applyReset :=
  (phaseInv_iff_of_idle rfl).mpr ⟨rfl, rfl, entriesRead_of_replicate rfl⟩

/-- START with the buffer's true length begins a transaction with its first phase's facts. -/
theorem underway_beginTransaction {s : State} {n : BitVec 16} (length : n = saturatedLen s.frame.len) :
    Underway (s.beginTransaction n) :=
  ⟨(phaseInv_iff_of_len rfl).mpr ⟨congrArg some length, entriesRead_of_replicate rfl⟩, nofun, nofun⟩

/-- A step of a transaction keeps the flags tied and its phase's facts. -/
theorem flagsTied_and_phaseInv_advance {s : State} (running : Underway s) (flags : FlagsTied s) :
    FlagsTied s.advance ∧ PhaseInv s.advance := by
  rcases goesOn_or_ends running with ⟨⟨facts, -, notDone'⟩, ⟨done, outcome, valid, result⟩, -⟩ | ⟨r, ends, -⟩
  · refine ⟨?_, facts⟩
    rw [flagsTied_iff_of_not_done notDone']
    rw [flagsTied_iff_of_not_done running.notDone] at flags
    rwa [FlagsClear, done, outcome, valid, result]
  · rw [ends]
    refine ⟨flagsTied_conclude _ (answer_ne_internalConsistency s), ?_⟩
    refine (phaseInv_iff_of_done (conclude_phase _ _)).mpr fun p shown => ?_
    rw [conclude_clkStrMaxlen]
    exact decodedPacketsAreGood s.clkStrMaxlen s.frame p (conclude_result_eq_some shown)

/-- Settles O49: no flag is set, and no register or slot holds a value. -/
theorem resetMeetsTheInvariant : Obligations.ResetMeetsTheInvariant :=
  (inv_iff _).mpr ⟨State.reset_frame_wf, rfl, fun asserted => absurd asserted (by decide),
    (flagsTied_iff_of_not_done (by decide)).mpr ⟨rfl, rfl, rfl, rfl⟩,
    (phaseInv_iff_of_idle rfl).mpr ⟨rfl, rfl, entriesRead_of_replicate rfl⟩⟩

/-- Settles O51: the flags do not see the ports, and the facts of IDLE and DONE do not see the frame. -/
theorem presentKeepsTheInvariant : Obligations.PresentKeepsTheInvariant := by
  intro s buf inv waits
  obtain ⟨-, port, -, flags, facts⟩ := (inv_iff s).mp inv
  exact (inv_iff _).mpr ⟨Memory.ofBytes_wf buf, port, fun _ => ⟨(startEnabled_iff _).mpr waits, rfl⟩, flags,
    phaseInv_congr waits rfl rfl rfl rfl rfl rfl facts⟩

/-- Without an operation on the port, what a step does from the invariant: `rst`, START in IDLE or DONE with the true
length, waiting, or a step of a transaction. -/
theorem step_of_inv {s : State} (inv : Inv s) :
    (s.rst = true ∧ step s = .next s.applyReset) ∨
    (s.startEnabled = true ∧ LaunchLengthTrue s ∧ step s = .next (s.takeStart.beginTransaction s.frameLen)) ∨
    (s.start = false ∧ step s = .next s) ∨
    (s.start = false ∧ Underway s ∧ step s = .next s.advance) := by
  obtain ⟨-, port, launch, -, facts⟩ := (inv_iff s).mp inv
  cases rst : s.rst with
  | true => exact .inl ⟨rfl, step_of_rst rst⟩
  | false =>
    cases start : s.start with
    | true =>
      obtain ⟨enabled, length⟩ := launch start
      refine .inr (.inl ⟨enabled, length, ?_⟩)
      rw [step_of_start rst port start]
      exact execStart_of_enabled enabled
    | false =>
      have row := step_of_quiet ⟨rst, start, port⟩
      by_cases waits : s.phase = .idle ∨ s.phase = .done
      · refine .inr (.inr (.inl ⟨rfl, ?_⟩))
        rw [row]
        rcases waits with phase | phase <;> simp only [phaseStep, phase]
      · have running : Underway s := ⟨facts, fun idle => waits (.inl idle), fun done => waits (.inr done)⟩
        exact .inr (.inr (.inr ⟨rfl, running, row.trans (phaseStep_of_underway running)⟩))

/-- Settles O52: each case of `step_of_inv` answers a next state. -/
theorem runningBlockIsNeverStuck : Obligations.RunningBlockIsNeverStuck := by
  intro s inv
  rcases step_of_inv inv with ⟨-, next⟩ | ⟨-, -, next⟩ | ⟨-, next⟩ | ⟨-, -, next⟩
  all_goals exact ⟨_, next⟩

/-- Settles O50: each case of `step_of_inv` keeps the frame, the ports, the flags and the phase's facts. -/
theorem stepKeepsTheInvariant : Obligations.StepKeepsTheInvariant := by
  intro s t inv next
  obtain ⟨wf, port, launch, flags, facts⟩ := (inv_iff s).mp inv
  rcases step_of_inv inv with ⟨-, row⟩ | ⟨-, length, row⟩ | ⟨-, row⟩ | ⟨noStart, running, row⟩
  all_goals
    rw [row] at next
    cases next
  · exact (inv_iff _).mpr ⟨wf, port, fun start => ⟨rfl, (launch start).right⟩,
      (flagsTied_iff_of_not_done (by simp)).mpr ⟨rfl, rfl, rfl, rfl⟩, phaseInv_applyReset s⟩
  · obtain ⟨begun, -⟩ := underway_beginTransaction (s := s.takeStart) length
    exact (inv_iff _).mpr ⟨wf, port, by simp, (flagsTied_iff_of_not_done (by simp)).mpr ⟨rfl, rfl, rfl, rfl⟩, begun⟩
  · exact inv
  · obtain ⟨flags', facts'⟩ := flagsTied_and_phaseInv_advance running flags
    obtain ⟨frame, ⟨-, start, -, port', -⟩, -⟩ := advance_untouched s
    refine (inv_iff _).mpr ⟨frame ▸ wf, port'.trans port, fun asserted => ?_, flags', facts'⟩
    rw [start, noStart] at asserted
    exact absurd asserted (by decide)

end Sys2Proof.Machine

/-! PROOFS about whole transactions (`45_frame.md` R210, R216, R219; `60_exceptions.md` R259; `10_state.md` R20). The
operation `DECODE` and a run of the machine are iterations of `advance`; a transaction reaches DONE in exactly the
steps it has to go, and stays there. -/

namespace Sys2Proof.Machine

/-! ## Iterating `advance` -/

/-- A transaction is running or has ended: the steps of R215's table are steps of `advance`. -/
def UnderwayOrDone (s : State) : Prop := Underway s ∨ s.phase = .done

theorem underwayOrDone_advance {s : State} (here : UnderwayOrDone s) : UnderwayOrDone s.advance := by
  rcases here with running | done
  · rcases goesOn_or_ends running with ⟨running', -, -⟩ | ⟨r, ends, -⟩
    · exact .inl running'
    · exact .inr (ends ▸ conclude_phase _ _)
  · rw [advance_of_done done]
    exact .inr done

/-- The operation's own loop iterates `advance`. -/
theorem runToDone_eq_iterate {s : State} (here : UnderwayOrDone s) (fuel : Nat) :
    runToDone fuel s = .next (State.advance^[fuel] s) := by
  induction fuel generalizing s with
  | zero => rfl
  | succ fuel ih =>
    rcases here with running | done
    · rw [runToDone, if_neg running.notDone, phaseStep_of_underway running, andThen_next,
        ih (underwayOrDone_advance (.inl running)), Function.iterate_succ_apply]
    · rw [runToDone, if_pos done, Function.iterate_fixed (advance_of_done done)]

theorem step_eq_advance {s : State} (quiet : HostQuiet s) (here : UnderwayOrDone s) : step s = .next s.advance := by
  rw [step_of_quiet quiet]
  rcases here with running | done
  · exact phaseStep_of_underway running
  · rw [advance_of_done done]
    simp only [phaseStep, done]

/-- A run of the machine with no input iterates `advance`. -/
theorem run_eq_iterate {s : State} (quiet : HostQuiet s) (here : UnderwayOrDone s) (k : Nat) :
    run k s = .next (State.advance^[k] s) := by
  induction k generalizing s with
  | zero => rfl
  | succ k ih =>
    rw [run_succ, step_eq_advance quiet here, andThen_next, ih (advance_quiet quiet) (underwayOrDone_advance here),
      Function.iterate_succ_apply]

theorem iterate_advance_untouched (k : Nat) (s : State) :
    (State.advance^[k] s).frame = s.frame ∧ PortsUntouched s (State.advance^[k] s) ∧
      OwnUntouched s (State.advance^[k] s) := by
  induction k generalizing s with
  | zero => exact ⟨rfl, ⟨rfl, rfl, rfl, rfl, rfl⟩, rfl, rfl⟩
  | succ k ih =>
    obtain ⟨frame, ⟨rst, start, length, port, build⟩, returned, epoch⟩ := advance_untouched s
    obtain ⟨frame', ⟨rst', start', length', port', build'⟩, returned', epoch'⟩ := ih s.advance
    rw [Function.iterate_succ_apply]
    exact ⟨frame'.trans frame, ⟨rst'.trans rst, start'.trans start, length'.trans length, port'.trans port,
      build'.trans build⟩, returned'.trans returned, epoch'.trans epoch⟩

/-- The answer is the frame's and the build's, which no step changes. -/
theorem advance_answer (s : State) : s.advance.answer = s.answer := by
  obtain ⟨frame, ⟨-, -, -, -, build⟩, -⟩ := advance_untouched s
  rw [State.answer, State.answer, frame, build]

theorem underway_of_lt_stepsToGo {s : State} (running : Underway s) {k : Nat} (before : k < s.stepsToGo) :
    Underway (State.advance^[k] s) := by
  induction k generalizing s with
  | zero => exact running
  | succ k ih =>
    rw [Function.iterate_succ_apply]
    rcases goesOn_or_ends running with ⟨running', -, nearer⟩ | ⟨-, -, last⟩
    · exact ih running' (by omega)
    · omega

/-- A transaction ends as `DECODE` answers when it has no steps to go. -/
theorem iterate_stepsToGo {s : State} (running : Underway s) {n : Nat} (all : s.stepsToGo = n) :
    ∃ u, State.advance^[n] s = State.conclude u s.answer := by
  induction n generalizing s with
  | zero =>
    rcases goesOn_or_ends running with ⟨-, -, nearer⟩ | ⟨-, -, last⟩ <;> omega
  | succ n ih =>
    rw [Function.iterate_succ_apply]
    rcases goesOn_or_ends running with ⟨running', -, nearer⟩ | ⟨r, ends, last⟩
    · rw [← advance_answer]
      exact ih running' (by omega)
    · obtain rfl : n = 0 := by omega
      exact ⟨_, ends⟩

/-- From then on it holds its result. -/
theorem iterate_of_stepsToGo_le {s : State} (running : Underway s) {k : Nat} (after : s.stepsToGo ≤ k) :
    ∃ u, State.advance^[k] s = State.conclude u s.answer := by
  obtain ⟨u, ended⟩ := iterate_stepsToGo running rfl
  refine ⟨u, ?_⟩
  rw [← Nat.sub_add_cancel after, Function.iterate_add_apply, ended,
    Function.iterate_fixed (advance_of_done (conclude_phase u s.answer))]

/-! ## DECODE and the machine -/

theorem stepsAfterStart_answer_le (s : State) : stepsAfterStart s.answer ≤ 184 := by
  by_cases length : s.frame.len = 1458
  · rcases Nat.lt_or_ge 180 (countOf s.frame).toNat with fails | passes
    · rw [State.answer, decodeFrame_of_count _ length fails, stepsAfterStart]
      decide
    · rw [State.answer, decodeFrame_of_pass _ length passes, stepsAfterStart]
      exact Nat.add_le_add_left passes 4
  · rw [State.answer, decodeFrame_of_len _ length, stepsAfterStart]
    decide

/-- The operation is START with the buffer's true length, then 184 steps of `advance`. -/
theorem execDecode_eq {s : State} (waits : s.phase = .idle ∨ s.phase = .done) :
    execDecode s = .next (State.advance^[maxSteps] (s.beginTransaction (saturatedLen s.frame.len))) := by
  rw [execDecode, if_pos ((startEnabled_iff s).mpr waits), runToDone_eq_iterate (.inl (underway_beginTransaction rfl))]

theorem execDecode_eq_next {s t : State} (done : execDecode s = .next t) :
    t = State.advance^[maxSteps] (s.beginTransaction (saturatedLen s.frame.len)) := by
  by_cases enabled : s.startEnabled = true
  · rw [execDecode_eq ((startEnabled_iff s).mp enabled)] at done
    exact (Host.Outcome.next.inj done).symm
  · rw [execDecode_of_busy (by simpa using enabled)] at done
    cases done

/-- Settles O37: 184 steps of `advance` are enough, and none of them writes a port, the frame or `returned`. -/
theorem decodeOperationPresentsTheFunction : Obligations.DecodeOperationPresentsTheFunction := by
  intro s waits
  have running := underway_beginTransaction (s := s) (rfl : saturatedLen s.frame.len = _)
  obtain ⟨u, ended⟩ := iterate_of_stepsToGo_le running (stepsAfterStart_answer_le _)
  obtain ⟨frame, ports, returned, -⟩ :=
    iterate_advance_untouched maxSteps (s.beginTransaction (saturatedLen s.frame.len))
  refine ⟨_, execDecode_eq waits, ?_, ?_, ?_, frame, ports, returned⟩
  all_goals rw [maxSteps, ended]
  · exact conclude_phase u _
  · exact conclude_done u _
  · exact presents_conclude u _

/-- Settles O38: START, then `advance` until no steps are to go, and a transaction underway before that. -/
theorem machineComputesDecode : Obligations.MachineComputesDecode := by
  intro s waits noRst noOperation start length answer
  let begun := s.takeStart.beginTransaction s.frameLen
  have running : Underway begun := underway_beginTransaction length
  have quiet : HostQuiet begun := ⟨noRst, rfl, noOperation⟩
  have runs (k : Nat) : run (1 + k) s = .next (State.advance^[k] begun) := by
    have taken : step s = .next begun := by
      rw [step_of_start noRst noOperation start]
      exact execStart_of_enabled ((startEnabled_iff _).mpr waits)
    rw [Nat.add_comm, run_succ, taken, andThen_next, run_eq_iterate quiet (.inl running)]
  refine ⟨⟨_, runs _, ?_⟩, fun k before => ⟨_, runs k, ?_⟩, stepsAfterStart_answer_le s⟩
  · obtain ⟨u, ended⟩ : ∃ u, State.advance^[stepsAfterStart answer] begun = State.conclude u answer :=
      iterate_stepsToGo running rfl
    obtain ⟨frame, -⟩ := iterate_advance_untouched (stepsAfterStart answer) begun
    exact ⟨ended ▸ conclude_phase u _, ended ▸ conclude_done u _, ended ▸ presents_conclude u _, frame⟩
  · exact (underway_of_lt_stepsToGo running before).notDone

/-! ## What is held, and what is forgotten -/

/-- Settles O48: DONE is a fixed point of `advance`. -/
theorem outcomeIsHeldUntilTheNextStart : Obligations.OutcomeIsHeldUntilTheNextStart := by
  intro s k quiet done
  rw [run_eq_iterate quiet (.inr done), Function.iterate_fixed (advance_of_done done)]

/-- Settles O35: before DONE the flags are clear; the commit writes the packet of `State.assembled`, whose fields are
those of the registers and slots that hold a value; DONE is held. -/
theorem commitPresentsTheWholeResult : Obligations.CommitPresentsTheWholeResult := by
  refine ⟨fun s inv notDone => ?before, fun s quiet phase last passes => ?commit⟩
  case before =>
    obtain ⟨-, -, -, flags, -⟩ := (inv_iff s).mp inv
    obtain ⟨done, -, valid, result⟩ := (flagsTied_iff_of_not_done notDone).mp flags
    exact ⟨result, by simp [State.resultPort, valid], by simp [State.outcomePort, done]⟩
  case commit =>
    have commits : step s = .next (s.endWith .ok (some (s.assembled _ passes))) := by
      rw [step_of_quiet quiet, ← commit_of_le passes]
      simp only [phaseStep, phase]
      rw [if_neg (by omega), if_pos last]
    refine ⟨_, commits, fun _ => valueOr_of_eq, fun _ => valueOr_of_eq, fun _ => valueOr_of_eq, fun _ => valueOr_of_eq,
      fun _ => valueOr_of_eq, fun v held => ?text, rfl, ?length, fun k inside e below whole => ?entry,
      fun n t held => ?held⟩
    case text => rw [State.assembled, State.clkStateStrValue, held, Option.getD_some]
    case length => simp [State.assembled]
    case entry =>
      have slot : k < s.dataCountValue.toNat := below
      simp [State.assembled, slot, whole]
    case held =>
      have quiet' : HostQuiet (s.endWith .ok (some (s.assembled _ passes))) := quiet
      have same := outcomeIsHeldUntilTheNextStart _ n quiet' rfl
      obtain rfl := Host.Outcome.next.inj (same.symm.trans held)
      exact ⟨rfl, rfl, rfl, rfl, rfl⟩

/-- The block without its ports and without the model's own fields. -/
def State.block (s : State) : State :=
  { s with rst := false, start := false, frameLen := 0, opQueue := [], returned := none, epoch := 0 }

/-- A step of a transaction is a function of the block alone. -/
theorem block_advance (s : State) : s.advance.block = s.block.advance := by
  cases phase : s.phase
  all_goals
    have phase' : s.block.phase = _ := phase
    simp only [State.advance, phase, phase']
  case len | cnt | ent => exact apply_ite State.block _ _ _
  all_goals rfl

/-- Settles O42: after START the two blocks are one, and `advance` keeps them so. -/
theorem transactionsAreIndependentOfThePast : Obligations.TransactionsAreIndependentOfThePast := by
  intro s s' t t' frame build done done'
  rw [exec] at done done'
  rw [execDecode_eq_next done, execDecode_eq_next done']
  have begun : (s.beginTransaction (saturatedLen s.frame.len)).block =
      (s'.beginTransaction (saturatedLen s'.frame.len)).block := by
    simp only [State.block, State.beginTransaction, frame, build]
  have iterated := Function.Semiconj.iterate_right (f := State.block) (ga := State.advance) (gb := State.advance)
    block_advance maxSteps
  have same := (iterated _).trans ((congrArg State.advance^[maxSteps] begun).trans (iterated _).symm)
  simp only [State.block, State.mk.injEq] at same
  obtain ⟨phase, idx, regs, ent, ended, outcome, valid, result, -⟩ := same
  exact ⟨outcome, result, valid, ended, phase, idx, regs, ent⟩

end Sys2Proof.Machine

/-! PROOFS about what operations leave alone and where they stop (`10_state.md` R26 to R29, `20_memory.md` R53 and R57,
`60_exceptions.md` R253, `70_reset_and_hazards.md` R290 and R302). An operation's next state is its state with named
updates, and no named update of the block writes a port, the frame or outcome code 3. -/

namespace Sys2Proof.Machine

/-! ## Stops -/

/-- Settles O46: each stop is the other branch of a load, a slot write, a check of the phase, a commit or a match. -/
theorem whereTheSpecGivesNoStepTheModelStopsByName : Obligations.WhereTheSpecGivesNoStepTheModelStopsByName := by
  refine fun s => ⟨fun short => ⟨?pktno, ?hdrPktno⟩, fun short => ?status, fun has short => ?hdrStatus,
    fun short => ?count, fun i held short => ?entry, fun i held above buffered => ?decEntry,
    fun i held above op listed => ?slot, fun busy => ?busy, fun quiet phase above => ?ent,
    fun quiet phase last above => ?commit, fun none => ?summary⟩
  case pktno => rw [exec, execLdPktno]; exact load_of_gt short
  case status => rw [exec, execLdStatus]; exact load_of_gt short
  case count => rw [exec, execLdCount]; exact load_of_gt short
  case hdrPktno => rw [exec, execDecHdr_eq, load_of_gt short]
  case hdrStatus => rw [exec, execDecHdr_eq, load_of_le has, load_of_gt short]
  case entry =>
    have outside : s.frame.len < 16 + 8 * s.idxValue.toNat + 8 := by rw [idxValue_of_some held]; omega
    rw [exec, exec, execDecEntry_eq, execLdEntry, offSlot, load_of_gt outside, load_of_gt outside,
      idxValue_of_some held]
    exact ⟨rfl, rfl⟩
  case decEntry =>
    rw [exec, execDecEntry_eq, idxValue_of_some held, load_of_le (by omega), writeSlot_of_ge above]
  case slot => rw [exec_slotOperation s listed, idxValue_of_some held, writeSlot_of_ge above]
  case busy =>
    have notEnabled := startEnabled_eq_false busy
    exact ⟨execStart_of_busy notEnabled, execDecode_of_busy notEnabled⟩
  case ent =>
    rw [step_of_quiet quiet]
    simp only [phaseStep, phase]
    rw [if_neg (by omega), if_neg (by omega)]
  case commit =>
    rw [step_of_quiet quiet]
    simp only [phaseStep, phase]
    rw [if_neg (by omega), if_pos last]
    exact dif_neg (Nat.not_le.mpr above)
  case summary => simp only [exec, execSummary, none]

/-- Settles O47: `rst` writes the reset values, by the lemmas of `State.applyReset`. -/
theorem resetLeavesNoValue : Obligations.ResetLeavesNoValue := by
  refine ⟨⟨rfl, rfl, rfl, rfl, rfl, rfl, fun k inside => Vector.getElem_replicate inside, rfl, rfl⟩, fun s rst => ?_⟩
  exact ⟨_, step_of_rst rst, rfl, rfl, rfl, rfl, rfl, rfl, rfl, rfl, rfl, rfl⟩

/-! ## The named updates of the block -/

/-- What an operation can write of the block: registers, slots, `idx`, the phase, the end of a transaction (never with
code 3) and the beginning of one. -/
inductive Updates : State → State → Prop where
  | none (s : State) : Updates s s
  | regs {s t : State} (before : Updates s t) (r : Regs) : Updates s (t.withRegs r)
  | slot {s t : State} (before : Updates s t) (k : Fin Config.maxData) (e : EntrySlot) : Updates s (t.withSlot k e)
  | idx {s t : State} (before : Updates s t) (i : BitVec 8) : Updates s (t.withIdx i)
  | phase {s t : State} (before : Updates s t) (p : Phase) : Updates s (t.withPhase p)
  | ends {s t : State} (before : Updates s t) (kind : OutcomeKind) (p : Option Packet)
      (raised : kind ≠ .internalConsistency) : Updates s (t.endWith kind p)
  | begins {s t : State} (before : Updates s t) (n : BitVec 16) : Updates s (t.beginTransaction n)

theorem Updates.trans {s t u : State} (first : Updates s t) (second : Updates t u) : Updates s u := by
  induction second with
  | none => exact first
  | regs _ r ih => exact .regs ih r
  | slot _ k e ih => exact .slot ih k e
  | idx _ i ih => exact .idx ih i
  | phase _ p ih => exact .phase ih p
  | ends _ kind p raised ih => exact .ends ih kind p raised
  | begins _ n ih => exact .begins ih n

/-- No update writes a port, the build's parameter, the handed-back value or the frame. -/
theorem Updates.untouched {s t : State} (updates : Updates s t) :
    t.frame = s.frame ∧ PortsUntouched s t ∧ t.returned = s.returned := by
  induction updates with
  | none => exact ⟨rfl, ⟨rfl, rfl, rfl, rfl, rfl⟩, rfl⟩
  | regs _ _ ih | slot _ _ _ ih | idx _ _ ih | phase _ _ ih | ends _ _ _ _ ih | begins _ _ ih => exact ih

/-- No update records code 3. -/
theorem Updates.outcome {s t : State} (updates : Updates s t) (absent : s.outcome ≠ some .internalConsistency) :
    t.outcome ≠ some .internalConsistency := by
  induction updates with
  | none => exact absent
  | regs _ _ ih | slot _ _ _ ih | idx _ _ ih | phase _ _ ih => exact ih
  | ends _ kind _ raised _ => simpa using raised
  | begins _ _ _ => simp

/-! ## What each operation writes -/

/-- The operations that write no state of the block. -/
def isPure : Instr → Bool
  | .bfx64 _ _ | .bfx32 _ _ | .bfx16 _ _ | .xfId _ _ | .xfScale4 (.value _) | .xfMinbin (.u32 _ _)
  | .xfMinbin (.u64 _ _) | .assertLayout | .summary => true
  | _ => false

/-- At most they hand a value back. -/
theorem exec_of_isPure {i : Instr} {s t : State} (pure : isPure i = true) (done : exec i s = .next t) :
    t = s ∨ ∃ v, t = s.withReturned v := by
  cases i
  case bfx64 | bfx32 | bfx16 | xfId => cases done; exact .inr ⟨_, rfl⟩
  case xfScale4 arg =>
    cases arg with
    | value v => cases done; exact .inr ⟨_, rfl⟩
    | entry => cases pure
  case xfMinbin arg =>
    cases arg with
    | u32 v maxLen | u64 v maxLen => cases done; exact .inr ⟨_, rfl⟩
    | clkState => cases pure
  case assertLayout =>
    rw [exec, execAssertLayout_eq] at done
    cases done
    exact .inl rfl
  case summary =>
    rw [exec, execSummary] at done
    split at done
    · cases done; exact .inr ⟨_, rfl⟩
    · cases done
  all_goals cases pure

theorem load_withRegs_eq_next {s t : State} {off n w : Nat} {f : BitVec w → Regs}
    (done : (load s off n w fun v => .next (s.withRegs (f v))) = .next t) : ∃ v, t = s.withRegs (f v) := by
  obtain ⟨-, done⟩ := load_eq_next done
  cases done
  exact ⟨_, rfl⟩

section
variable {s t : State}

theorem execLdPktno_eq_next (done : execLdPktno s = .next t) :
    ∃ v, t = s.withRegs { s.regs with packetNo := some v } := load_withRegs_eq_next done

theorem execLdStatus_eq_next (done : execLdStatus s = .next t) :
    ∃ v, t = s.withRegs { s.regs with status24 := some v } := load_withRegs_eq_next done

theorem execLdCount_eq_next (done : execLdCount s = .next t) :
    ∃ v, t = s.withRegs { s.regs with countRaw := some v } := load_withRegs_eq_next done

theorem execLdEntry_eq_next (done : execLdEntry s = .next t) :
    ∃ v, t = s.withRegs { s.regs with word := some v } := load_withRegs_eq_next done

theorem execChkLen_eq_next (done : execChkLen s = .next t) :
    t = s.withPhase .hdr ∨ t = s.raise .notThisProtocol := by
  by_cases length : s.lenValue.toNat = 1458
  · rw [execChkLen_of_eq length] at done; cases done; exact .inl rfl
  · rw [execChkLen_of_ne length] at done; cases done; exact .inr rfl

theorem execChkCount_eq_next (done : execChkCount s = .next t) :
    t = (s.withIdx 0).withPhase .ent ∨ t = s.raise .malformedCount := by
  rcases Nat.lt_or_ge 180 s.dataCountValue.toNat with fails | passes
  · rw [execChkCount_of_gt fails] at done; cases done; exact .inr rfl
  · rw [execChkCount_of_le passes] at done; cases done; exact .inl rfl

theorem execStart_eq_next (done : execStart s = .next t) : t = s.beginTransaction s.frameLen := by
  by_cases enabled : s.startEnabled = true
  · rw [execStart_of_enabled enabled] at done; cases done; rfl
  · rw [execStart_of_busy (by simpa using enabled)] at done; cases done

theorem exec_slotOperation_eq_next {op : Instr} {i : BitVec 8} (listed : op ∈ slotOperations) (idx : s.idxValue = i)
    (done : exec op s = .next t) : ∃ inside : i.toNat < Config.maxData,
      t = s.withSlot ⟨i.toNat, inside⟩ (slotWrite s.wordValue s.epoch i.toNat op s.ent[i.toNat]) := by
  subst idx
  rw [exec_slotOperation s listed] at done
  exact writeSlot_eq_next done

end

/-- Every operation on an entry writes the slot that `idx` names, and none but `DEC.ENTRY` writes `r.word`. -/
theorem exec_entryOperation_eq_next {op : Instr} {s t : State} {i : BitVec 8} (inside : i.toNat < Config.maxData)
    (listed : op ∈ slotOperations ∨ op = .decEntry) (idx : s.idxValue = i) (done : exec op s = .next t) :
    ∃ word e, (op ≠ .decEntry → word = s.regs.word) ∧
      t = (s.withRegs { s.regs with word := word }).withSlot ⟨i.toNat, inside⟩ e := by
  rcases listed with listed | rfl
  · obtain ⟨_, rfl⟩ := exec_slotOperation_eq_next listed idx done
    exact ⟨s.regs.word, _, fun _ => rfl, rfl⟩
  · obtain ⟨_, rfl⟩ := execDecEntry_eq_next idx done
    exact ⟨_, _, fun other => absurd rfl other, rfl⟩

/-- The operations that write working registers and nothing else. -/
def registerOperations : List Instr :=
  [.ldPktno, .ldStatus, .exClkState, .exI2cStatus, .exAdcClkSel, .exAsicEn, .decHdr, .xfMinbin .clkState, .ldCount,
    .exCount, .ldEntry]

theorem exec_registerOperation {op : Instr} {s t : State} (listed : op ∈ registerOperations)
    (done : exec op s = .next t) : ∃ r, t = s.withRegs r := by
  simp only [registerOperations, List.mem_cons, List.not_mem_nil, or_false] at listed
  rcases listed with rfl | rfl | rfl | rfl | rfl | rfl | rfl | rfl | rfl | rfl | rfl
  · obtain ⟨v, rfl⟩ := execLdPktno_eq_next done; exact ⟨_, rfl⟩
  · obtain ⟨v, rfl⟩ := execLdStatus_eq_next done; exact ⟨_, rfl⟩
  iterate 4 · cases done; exact ⟨_, rfl⟩
  · exact ⟨_, execDecHdr_eq_next done⟩
  · cases done; exact ⟨_, rfl⟩
  · obtain ⟨v, rfl⟩ := execLdCount_eq_next done; exact ⟨_, rfl⟩
  · cases done; exact ⟨_, rfl⟩
  · obtain ⟨v, rfl⟩ := execLdEntry_eq_next done; exact ⟨_, rfl⟩

theorem updates_of_registerOperation {op : Instr} {s t : State} (listed : op ∈ registerOperations)
    (done : exec op s = .next t) : Updates s t := by
  obtain ⟨r, rfl⟩ := exec_registerOperation listed done
  exact .regs (.none s) r

theorem updates_of_slotOperation {op : Instr} {s t : State} (listed : op ∈ slotOperations)
    (done : exec op s = .next t) : Updates s t := by
  obtain ⟨inside, rfl⟩ := exec_slotOperation_eq_next listed rfl done
  exact .slot (.none s) _ _

theorem updates_of_decEntry {s t : State} (done : execDecEntry s = .next t) : Updates s t := by
  obtain ⟨inside, rfl⟩ := execDecEntry_eq_next rfl done
  exact .slot (.regs (.none s) _) _ _

theorem updates_of_chkLen {s t : State} (done : execChkLen s = .next t) : Updates s t := by
  rcases execChkLen_eq_next done with rfl | rfl
  · exact .phase (.none s) _
  · exact .ends (.none s) _ _ (by decide)

theorem updates_of_chkCount {s t : State} (done : execChkCount s = .next t) : Updates s t := by
  rcases execChkCount_eq_next done with rfl | rfl
  · exact .phase (.idx (.none s) _) _
  · exact .ends (.none s) _ _ (by decide)

/-- A row of R215's table writes by its operations, or commits. -/
theorem updates_of_phaseStep {s t : State} (done : phaseStep s = .next t) : Updates s t := by
  unfold phaseStep at done
  split at done
  case h_1 | h_6 => cases done; exact .none s
  case h_2 => exact updates_of_chkLen done
  case h_3 =>
    obtain ⟨u, header, done⟩ := andThen_eq_next done
    cases done
    exact .phase (updates_of_registerOperation (op := .decHdr) (by decide) header) _
  case h_4 =>
    obtain ⟨u, load, done⟩ := andThen_eq_next done
    obtain ⟨v, extraction, done⟩ := andThen_eq_next done
    exact ((updates_of_registerOperation (op := .ldCount) (by decide) load).trans
      (updates_of_registerOperation (op := .exCount) (by decide) extraction)).trans (updates_of_chkCount done)
  case h_5 =>
    split at done
    · obtain ⟨u, entry, done⟩ := andThen_eq_next done
      cases done
      exact .idx (updates_of_decEntry entry) _
    · split at done
      · obtain ⟨-, rfl⟩ := commit_eq_next done
        exact .ends (.none s) _ _ (by decide)
      · cases done

theorem updates_of_runToDone {fuel : Nat} {s t : State} (done : runToDone fuel s = .next t) : Updates s t := by
  induction fuel generalizing s with
  | zero => cases done; exact .none _
  | succ fuel ih =>
    rw [runToDone] at done
    split at done
    · cases done; exact .none _
    · obtain ⟨u, row, done⟩ := andThen_eq_next done
      exact (updates_of_phaseStep row).trans (ih done)

theorem updates_of_decode {s t : State} (done : execDecode s = .next t) : Updates s t := by
  rw [execDecode] at done
  split at done
  · exact (Updates.begins (.none s) _).trans (updates_of_runToDone done)
  · cases done

/-- Every other operation writes by named updates of the block. -/
theorem updates_of_exec {i : Instr} {s t : State} (writes : isPure i = false) (done : exec i s = .next t) :
    Updates s t := by
  cases i
  case bfx64 | bfx32 | bfx16 | xfId | assertLayout | summary => cases writes
  case xfScale4 arg =>
    cases arg with
    | value v => cases writes
    | entry => exact updates_of_slotOperation (by decide) done
  case xfMinbin arg =>
    cases arg with
    | u32 v maxLen | u64 v maxLen => cases writes
    | clkState => exact updates_of_registerOperation (by decide) done
  case exAdc | exTsFpga | exTsAsic | exChannelId | exAsicId | exPileUp | exOverflow =>
    exact updates_of_slotOperation (by decide) done
  case decEntry => exact updates_of_decEntry done
  case chkLen => exact updates_of_chkLen done
  case chkCount => exact updates_of_chkCount done
  case start => exact execStart_eq_next done ▸ .begins (.none s) _
  case decode => exact updates_of_decode done
  all_goals exact updates_of_registerOperation (by decide) done

/-! ## Frames of the operations -/

theorem frameUntouched_of_eq {s t : State} (same : t.frame = s.frame) : FrameUntouched s t := by
  rw [FrameUntouched, same]
  exact ⟨rfl, fun _ => rfl⟩

/-- Settles O54: the next state is the state, or the state with a value handed back. -/
theorem pureOperationsFrame : Obligations.PureOperationsFrame := by
  intro s t i listed done
  have pure : isPure i = true := by
    rcases listed with ⟨_, _, rfl⟩ | ⟨_, _, rfl⟩ | ⟨_, _, rfl⟩ | ⟨_, _, rfl⟩ | ⟨_, rfl⟩ | ⟨_, _, rfl⟩ | ⟨_, _, rfl⟩ |
      rfl | rfl
    all_goals rfl
  rcases exec_of_isPure pure done with rfl | ⟨v, rfl⟩
  all_goals exact ⟨⟨rfl, rfl⟩, rfl, rfl, ⟨rfl, rfl, rfl, rfl⟩, ⟨rfl, rfl, rfl, rfl, rfl⟩, rfl, frameUntouched_of_eq rfl⟩

/-- Settles O55: each operation is one write of the registers, whose field the rule names. -/
theorem registerOperationsFrame : Obligations.RegisterOperationsFrame := by
  refine fun s t => ⟨fun op listed done => ?frame, fun done => ?_, fun done => ?_, fun done => ?_, fun done => ?_,
    fun done => ?_, fun done => ?_, fun done => ?_, fun done => ?decHdr, fun done => ?_, fun done => ?_, fun done => ?_⟩
  case frame =>
    obtain ⟨r, rfl⟩ := exec_registerOperation listed done
    exact ⟨⟨rfl, rfl⟩, rfl, ⟨rfl, rfl, rfl, rfl⟩, ⟨rfl, rfl, rfl, rfl, rfl⟩, ⟨rfl, rfl⟩, frameUntouched_of_eq rfl⟩
  case decHdr => obtain rfl := execDecHdr_eq_next done; exact ⟨rfl, rfl, rfl, rfl⟩
  · obtain ⟨v, rfl⟩ := execLdPktno_eq_next done; rfl
  · obtain ⟨v, rfl⟩ := execLdStatus_eq_next done; rfl
  iterate 5 · cases done; rfl
  · obtain ⟨v, rfl⟩ := execLdCount_eq_next done; rfl
  · cases done; rfl
  · obtain ⟨v, rfl⟩ := execLdEntry_eq_next done; rfl

/-- Settles O56: each operation is one write of the slot that `idx` names, `DEC.ENTRY` with one of `r.word`. -/
theorem entryOperationsFrame : Obligations.EntryOperationsFrame := by
  intro s t i inside held
  have idx := idxValue_of_some held
  have written (op : Instr) (listed : op ∈ slotOperations) (done : exec op s = .next t) :
      t.ent[i.toNat] = slotWrite s.wordValue s.epoch i.toNat op s.ent[i.toNat] := by
    obtain ⟨_, rfl⟩ := exec_slotOperation_eq_next listed idx done
    exact withSlot_ent_self s ⟨i.toNat, inside⟩ _
  refine ⟨fun op listed done => ?frame, fun done => ?_, fun done => ?_, fun done => ?_, fun done => ?_, fun done => ?_,
    fun done => ?_, fun done => ?_, fun done => ?_⟩
  case frame =>
    have known : op ∈ slotOperations ∨ op = .decEntry := List.mem_append.mp listed |>.imp_right List.mem_singleton.mp
    obtain ⟨word, e, kept, rfl⟩ := exec_entryOperation_eq_next inside known idx done
    exact ⟨fun k bound other => withSlot_ent_of_ne _ ⟨i.toNat, inside⟩ e bound other, ⟨rfl, rfl⟩, ⟨rfl, rfl, rfl, rfl⟩,
      ⟨rfl, rfl, rfl, rfl, rfl⟩, ⟨rfl, rfl⟩, frameUntouched_of_eq rfl, fun other => kept other ▸ rfl, rfl⟩
  all_goals
    rw [written _ (by decide) done]
    rfl

/-- Settles O57: the checks write the phase and the flags; no update writes a port, `returned` or the frame. -/
theorem controlOperationsFrame : Obligations.ControlOperationsFrame := by
  refine fun s t => ⟨fun op listed done => ?checks, fun op listed done => ?all⟩
  case checks =>
    simp only [List.mem_cons, List.not_mem_nil, or_false] at listed
    rcases listed with rfl | rfl
    · rcases execChkLen_eq_next done with rfl | rfl <;> exact ⟨rfl, rfl, rfl⟩
    · rcases execChkCount_eq_next done with rfl | rfl <;> exact ⟨rfl, rfl, rfl⟩
  case all =>
    have writes : isPure op = false := by
      simp only [List.mem_cons, List.not_mem_nil, or_false] at listed
      rcases listed with rfl | rfl | rfl | rfl <;> rfl
    obtain ⟨frame, ports, returned⟩ := (updates_of_exec writes done).untouched
    exact ⟨ports, returned, frameUntouched_of_eq frame⟩

/-! ## What no step writes -/

/-- An operation leaves the frame, its length port and the build's parameter. -/
theorem exec_keeps_frame {i : Instr} {s t : State} (done : exec i s = .next t) :
    t.frame = s.frame ∧ t.frameLen = s.frameLen ∧ t.clkStrMaxlen = s.clkStrMaxlen := by
  cases pure : isPure i with
  | true => rcases exec_of_isPure pure done with rfl | ⟨v, rfl⟩ <;> exact ⟨rfl, rfl, rfl⟩
  | false =>
    obtain ⟨frame, ⟨-, -, length, -, build⟩, -⟩ := (updates_of_exec pure done).untouched
    exact ⟨frame, length, build⟩

/-- Settles O21: `rst` writes neither, and every other step is an operation or a row of the table. -/
theorem noStepWritesTheFrame : Obligations.NoStepWritesTheFrame := by
  intro s t done
  rcases step_cases done with ⟨-, rfl⟩ | ⟨-, i, rest, -, done⟩ | ⟨-, -, -, done⟩ | ⟨-, done⟩
  · exact ⟨rfl, rfl, rfl⟩
  · obtain ⟨frame, length, build⟩ := exec_keeps_frame done
    exact ⟨frame, length, build⟩
  · obtain ⟨frame, length, build⟩ := exec_keeps_frame done
    exact ⟨frame, length, build⟩
  · obtain ⟨frame, ⟨-, -, length, -, build⟩, -⟩ := (updates_of_phaseStep done).untouched
    exact ⟨frame, length, build⟩

/-- Settles O22: the laws of `Memory.ofBytes`; and no step writes the frame at all. -/
theorem presentedFrameIsCanonicalAndFaithful : Obligations.PresentedFrameIsCanonicalAndFaithful := by
  refine ⟨fun buf => ⟨Memory.ofBytes_wf buf, rfl, fun a => ?bytes⟩, fun s t wf done => ?kept⟩
  case bytes =>
    rw [Memory.byte?, Memory.byte_ofBytes, Memory.len_ofBytes]
    by_cases inside : a < buf.length
    · rw [if_pos inside, List.getElem?_eq_getElem inside, Option.getD_some]
    · rw [if_neg inside, List.getElem?_eq_none (Nat.le_of_not_lt inside)]
  case kept =>
    obtain ⟨frame, -⟩ := noStepWritesTheFrame s t done
    exact frame ▸ wf

/-- Settles O53: no update records code 3, a handed-back value is no outcome, and `rst` leaves none. -/
theorem internalConsistencyIsNeverRecorded : Obligations.InternalConsistencyIsNeverRecorded := by
  intro s t absent done
  rcases step_cases done with ⟨-, rfl⟩ | ⟨-, i, rest, -, done⟩ | ⟨-, -, -, done⟩ | ⟨-, done⟩
  · exact nofun
  · cases pure : isPure i with
    | true => rcases exec_of_isPure pure done with rfl | ⟨v, rfl⟩ <;> exact absent
    | false => exact (updates_of_exec pure done).outcome absent
  · exact (updates_of_exec rfl done).outcome absent
  · exact (updates_of_phaseStep done).outcome absent

end Sys2Proof.Machine

/-! PROOFS about the outer set bits (`00_scope.md` R12), the rendering of `clk_state` (`41_transforms.md` R147) and the
decimal numerals of the summary (`46_summary.md` R240). -/

namespace Sys2Proof.Machine

/-! ## The outer set bits -/

/-- Settles O1: the lowest bit by the lemmas of `ctz`, the highest by those of `bitlen`. -/
theorem ctzAndBitlenFindTheOuterSetBits : Obligations.CtzAndBitlenFindTheOuterSetBits := by
  intro w v nonzero
  have inside := BitVec.lt_of_getLsbD (getLsbD_bitlen_sub_one nonzero)
  exact ⟨ctz_lt_width nonzero, getLsbD_ctz nonzero, fun _ => getLsbD_of_lt_ctz nonzero, bitlen_pos nonzero, by omega,
    getLsbD_bitlen_sub_one nonzero, fun _ => getLsbD_of_bitlen_le v⟩

/-! ## The rendering of `clk_state` -/

/-- The highest set bit of a value is where no bit above it is set. -/
theorem bitlen_eq {w k : Nat} {v : BitVec w} (set : v.getLsbD k = true) (clear : ∀ j, k < j → v.getLsbD j = false) :
    bitlen v = k + 1 := by
  have nonzero : v ≠ 0 := by rintro rfl; simp at set
  have top := getLsbD_bitlen_sub_one nonzero
  have pos := bitlen_pos nonzero
  have notBelow : ¬ bitlen v ≤ k := fun above => by simp [getLsbD_of_bitlen_le v above] at set
  have notAbove : ¬ k < bitlen v - 1 := fun above => by simp [clear _ above] at top
  omega

/-- Zero extension needs no more digits. -/
theorem bitsToPrint_setWidth {w w' : Nat} (v : BitVec w) (wider : w ≤ w') :
    bitsToPrint (v.setWidth w') = bitsToPrint v := by
  by_cases zero : v = 0
  · simp [zero, bitsToPrint]
  · have pos := bitlen_pos zero
    have inside := BitVec.lt_of_getLsbD (getLsbD_bitlen_sub_one zero)
    rw [bitsToPrint_of_ne_zero zero, bitsToPrint_of_ne_zero (setWidth_ne_zero zero wider),
      bitlen_eq (k := bitlen v - 1), Nat.sub_add_cancel pos]
    · simp [getLsbD_bitlen_sub_one zero]
      omega
    · intro j above
      simp [getLsbD_of_bitlen_le v (by omega : bitlen v ≤ j)]

theorem bitsToPrint_le {w : Nat} (v : BitVec w) (pos : 0 < w) : bitsToPrint v ≤ w := by
  by_cases zero : v = 0
  · rwa [zero, bitsToPrint, if_pos rfl]
  · have inside := BitVec.lt_of_getLsbD (getLsbD_bitlen_sub_one zero)
    rw [bitsToPrint_of_ne_zero zero]
    omega

/-- Settles O16: five digits, the marker and the terminator are seven bytes; 31 has five digits. -/
theorem clkStateRenderingIsNeverTruncated : Obligations.ClkStateRenderingIsNeverTruncated := by
  refine ⟨fun c room v => ?fits, fun c short => ?truncated, rfl⟩
  case fits =>
    have digits : bitsToPrint (v.setWidth 32) = bitsToPrint v := bitsToPrint_setWidth v (by decide)
    have five : bitsToPrint v ≤ 5 := bitsToPrint_le v (by decide)
    refine ⟨minbinDigits (v.setWidth 32) (bitsToPrint (v.setWidth 32)), minbin_of_room (by omega), ?_, ?_, ?_⟩
    · rw [length_minbinDigits, digits]
    · rwa [length_minbinDigits, digits]
    · exact (numeralOf_minbinDigits_bitsToPrint _).trans (BitVec.toNat_setWidth_of_le (by decide))
  case truncated =>
    have five : bitsToPrint ((31 : BitVec 5).setWidth 32) = 5 := by decide
    rw [clkStateText, minbin_of_no_room c.property (by omega), List.mem_append, not_or]
    refine ⟨fun digit => ?_, by decide⟩
    rcases eq_charZero_or_charOne_of_mem_minbinDigits digit with zero | one
    · exact absurd zero (by decide)
    · exact absurd one (by decide)

/-! ## Decimal numerals -/

/-- What a list of decimal digits says, most significant first. -/
def decimalValue (digits : List Nat) : Nat := digits.foldl (fun acc d => 10 * acc + d) 0

theorem decimalValue_concat (digits : List Nat) (d : Nat) :
    decimalValue (digits ++ [d]) = 10 * decimalValue digits + d := by
  simp [decimalValue]

/-- `digits` is the numeral of `v`: decimal digits, no leading zero, that read as `v`. -/
structure IsNumeral (digits : List Nat) (v : Nat) : Prop where
  digit   : ∀ d ∈ digits, d < 10
  pos     : 1 ≤ digits.length
  leading : digits.head? = some 0 → digits = [0]
  value   : decimalValue digits = v

theorem isNumeral_digit {d : Nat} (small : d < 10) : IsNumeral [d] d where
  digit := by simpa using small
  pos := le_rfl
  leading := by simp
  value := by simp [decimalValue]

/-- A digit after the numeral of a positive number makes a numeral: the leading digit stays. -/
theorem IsNumeral.concat {digits : List Nat} {v d : Nat} (numeral : IsNumeral digits v) (positive : 0 < v)
    (small : d < 10) : IsNumeral (digits ++ [d]) (10 * v + d) where
  digit e mem := by
    rcases List.mem_append.mp mem with inside | last
    · exact numeral.digit e inside
    · simpa [List.mem_singleton.mp last] using small
  pos := by simp
  leading zero := by
    have nonempty : digits ≠ [] := List.ne_nil_of_length_pos numeral.pos
    rw [List.head?_append_of_ne_nil _ nonempty] at zero
    have lone := numeral.leading zero
    have value := numeral.value
    rw [lone] at value
    exact absurd value positive.ne
  value := by rw [decimalValue_concat, numeral.value]

/-- With fuel for its digits, a number's decimal digits are its numeral. -/
theorem isNumeral_decimalDigits {fuel v : Nat} (enough : v < 10 ^ (fuel + 1)) :
    IsNumeral (decimalDigits (fuel + 1) v) v := by
  induction fuel generalizing v with
  | zero =>
    have small : v < 10 := by simpa using enough
    rw [decimalDigits, if_pos small]
    exact isNumeral_digit small
  | succ fuel ih =>
    by_cases small : v < 10
    · rw [decimalDigits, if_pos small]
      exact isNumeral_digit small
    · rw [decimalDigits, if_neg small]
      have upper : v / 10 < 10 ^ (fuel + 1) := Nat.div_lt_of_lt_mul (by rwa [← Nat.pow_succ'])
      have numeral := (ih upper).concat (d := v % 10) (by omega) (Nat.mod_lt v (by decide))
      rwa [Nat.div_add_mod] at numeral

/-- No more digits than the fuel. -/
theorem length_decimalDigits_le (fuel v : Nat) : (decimalDigits fuel v).length ≤ fuel := by
  induction fuel generalizing v with
  | zero => exact le_rfl
  | succ fuel ih =>
    rw [decimalDigits]
    split
    · simp
    · simpa using ih (v / 10)

theorem summaryLine_eq (p : Packet) :
    summaryLine p = "no: ".toList ++ dec p.packetNo ++ ", size: ".toList ++ dec p.dataCount := by
  have no : "no: ".toList = ['n', 'o', ':', ' '] := by decide
  have size : ", size: ".toList = [',', ' ', 's', 'i', 'z', 'e', ':', ' '] := by decide
  rw [summaryLine, no, size]

/-- `SUMMARY` on a committed result. -/
theorem execSummary_of_some {s : State} {p : Packet} (shown : s.result = some p) :
    execSummary s = .next (s.withReturned (.summary (summaryLine p))) := by
  simp only [execSummary, shown]

/-- Settles O44: the line is `summaryLine`'s; 20 digits are enough for 64 bits. -/
theorem summaryIsTheDecimalLine : Obligations.SummaryIsTheDecimalLine := by
  refine ⟨fun s p shown => ?line, fun w v narrow => ?numeral⟩
  case line =>
    rw [← summaryLine_eq]
    exact execSummary_of_some shown
  case numeral =>
    have wide : v.toNat < 2 ^ 64 := v.isLt.trans_le (Nat.pow_le_pow_right (by decide) narrow)
    have numeral := isNumeral_decimalDigits (fuel := 19) (wide.trans (by decide))
    exact ⟨decimalDigits 20 v.toNat, rfl, numeral.digit, numeral.pos, length_decimalDigits_le 20 _, numeral.leading,
      numeral.value⟩

end Sys2Proof.Machine
